-- ==== Sys2Proof/Word.lean ====
section
/-! DEFINITION. The words, addresses and counts of the FZ408, and the small banks (one value per port,
per engine port, per window) its state is made of. -/

namespace Sys2Proof

/-- A 32-bit word of memory, and also a 32-bit byte address (00, 0.5). -/
abbrev Word := BitVec 32

/-- A count of the 16-bit microsecond timebase (R177). -/
abbrev Micros := BitVec 16

/-- The four byte lanes of one beat; bit 0 is the lane of the lowest byte address (R1). -/
abbrev Lanes := BitVec 4

/-- The index of a window of an engine port, or of an attribute range, or of a buffer entry less one. -/
abbrev Index8 := Fin 8

/-- A selector as a window holds it, 0 to 255 (R34). -/
abbrev Selector := BitVec 8

/-- The argument of a command word, and a rotation in granules (21 bits, 12.2 and R23). -/
abbrev Arg := BitVec 21

/-- The three engine ports P1, P2 and P3 (00, 0.1). -/
inductive Engine where
  | p1 | p2 | p3
  deriving DecidableEq, Repr

/-- The four initiator ports: the supervisor port P0 and the engine ports (00, 0.1). -/
inductive Port where
  | p0
  | engine (e : Engine)
  deriving DecidableEq, Repr

/-- One value for each engine port. -/
structure PerEngine (α : Type) where
  p1 : α
  p2 : α
  p3 : α
  deriving DecidableEq, Repr

/-- One value for each initiator port. -/
structure PerPort (α : Type) where
  p0 : α
  engines : PerEngine α
  deriving DecidableEq, Repr

/-- Eight like things: the windows of a port, the attribute ranges, the buffer entries. -/
structure Eight (α : Type) where
  x0 : α
  x1 : α
  x2 : α
  x3 : α
  x4 : α
  x5 : α
  x6 : α
  x7 : α
  deriving DecidableEq, Repr

end Sys2Proof
end

