-- ==== Sys2Proof/Syntax.lean ====
section
/-! DEFINITION. The commands of the FZ408: one constructor of `Instr` for each row of the table of operations
and events, with the data the event carries from outside the part. -/

namespace Sys2Proof

/-- The five access kinds of an initiator request (R1). -/
inductive Access where
  | read | write | lockRead | unlockWrite | unlock
  deriving DecidableEq, Repr

/-- One written word with its byte lanes (R1). -/
structure Beat where
  data  : Word
  lanes : Lanes
  deriving DecidableEq, Repr

/-- An initiator request as the link carries it: the access kind, address bits 31..2, the beat count, and for
kinds that write one word and four lanes per beat (R1). -/
structure Request where
  kind     : Access
  wordAddr : BitVec 30
  beats    : Nat
  data     : List Beat
  deriving DecidableEq, Repr

/-- What memory answers to an issued read, or to an issued piece: OK with the words read (none for a write), or
ERROR (R15). -/
inductive Answer where
  | ok (data : List Word)
  | error
  deriving DecidableEq, Repr

/-- What memory answers to an issued write: OK or ERROR (R15). -/
inductive Ack where
  | ok | error
  deriving DecidableEq, Repr

/-- The commands: the rows of spec/opcode_table.json. -/
inductive Instr where
  /-- RESET_ASSERT (R19). -/
  | resetAssert
  /-- RESET_RELEASE (R177): the release of RESET_N, with the values on the strap pins. -/
  | resetRelease (anc : BitVec 12) (div : BitVec 3)
  /-- TIMEBASE_TICK (R177). -/
  | timebaseTick
  /-- REQUEST_ACCEPT (R2): the initiator presents a request on its link. -/
  | requestAccept (p : Port) (req : Request)
  /-- ADMISSION (R7) of the oldest WAITING entry of a port. -/
  | admission (p : Port)
  /-- GRANT (R105). -/
  | grant
  /-- PIECE_ANSWER (R16). -/
  | pieceAnswer (a : Answer)
  /-- POSTED_ENTRY_ANSWER (R95). -/
  | postedEntryAnswer (a : Ack)
  /-- DESCRIPTOR_FETCH_ANSWER (R61). -/
  | descriptorFetchAnswer (a : Answer)
  /-- START_READ_ANSWER (R162): the answer to one of the two configuration reads of START. -/
  | startReadAnswer (a : Answer)
  /-- RELOAD_MAP_READ_ANSWER (R87): the answer to one of the two reads of RELOAD_MAP. -/
  | reloadMapReadAnswer (a : Answer)
  /-- CONFIGURE_PORT_READ_ANSWER (R168). -/
  | configurePortReadAnswer (a : Answer)
  /-- RING_WRITE_ANSWER (R135). -/
  | ringWriteAnswer (a : Ack)
  /-- STATUS_UPDATE_ANSWER (R169). -/
  | statusUpdateAnswer (a : Ack)
  /-- RESULT_WRITE_ANSWER (R166). -/
  | resultWriteAnswer (a : Ack)
  /-- LOCK_TIMER_EXPIRY (R119). -/
  | lockTimerExpiry
  /-- INTERVAL_EXPIRY (R153). -/
  | intervalExpiry
  /-- START (R161): an answered covered COMMAND write of code 01h. -/
  | start
  /-- STOP (R165): code 02h. -/
  | stop
  /-- LOAD_WINDOW (R37): code 03h, with the port, window and argument fields. -/
  | loadWindow (p : Port) (w : Index8) (arg : Arg)
  /-- CLEAR_WINDOW (R42): code 04h. -/
  | clearWindow (p : Port) (w : Index8)
  /-- ROTATE (R44): code 05h. -/
  | rotate (p : Port) (w : Index8) (arg : Arg)
  /-- INVALIDATE (R69): code 06h. -/
  | invalidate (arg : Arg)
  /-- INVALIDATE_ALL (R70): code 07h. -/
  | invalidateAll
  /-- RELEASE_PORT (R149): code 08h. -/
  | releasePort (p : Port)
  /-- CONFIGURE_PORT (R168): code 09h. -/
  | configurePort (p : Port)
  /-- RELOAD_MAP (R85): code 0Ah. -/
  | reloadMap
  /-- DRAIN (R98): code 0Bh. -/
  | drain
  /-- UNKNOWN_COMMAND (R157): a covered COMMAND write of code 0Ch or above. -/
  | unknownCommand (word : Word)
  /-- MALFORMED (R157): a COMMAND write that does not cover the word. -/
  | malformed (lanes : Lanes) (word : Word)
  /-- IGNORED_COMMAND (R157): a covered COMMAND write of code 00h. -/
  | ignoredCommand (word : Word)
  /-- CONSUMER (R138): an answered P0 write of the CONSUMER word. -/
  | consumer (lanes : Lanes) (word : Word)
  /-- ENABLE (R172): an answered P0 write of the ENABLE word. -/
  | enable (lanes : Lanes) (word : Word)
  /-- ACKNOWLEDGE (R171): an answered P0 write of the ACKNOWLEDGE word. -/
  | acknowledge (lanes : Lanes) (word : Word)
  /-- COMMAND_OVERRUN (R157): a COMMAND write while a command is in progress. -/
  | commandOverrun (lanes : Lanes) (word : Word)
  deriving DecidableEq, Repr

end Sys2Proof
end

