-- ==== Sys2Proof/Machine/Fields.lean ====
section
/-! DEFINITION. Field extraction from the words of chapter 12, and the reading and writing of the banks of one
value per port, per engine port and per window. -/

namespace Sys2Proof.Machine

/-- Bit `i` of a word (12, head of the chapter: bit 0 is the least significant). -/
def bitOf (w : Word) (i : Nat) : Bool := w.getLsbD i

/-- COMMAND, bits 5..0: the code (12.2). -/
def codeField (w : Word) : BitVec 6 := w.extractLsb' 0 6

/-- COMMAND, bits 7..6: the port code (12.2). -/
def portField (w : Word) : BitVec 2 := w.extractLsb' 6 2

/-- COMMAND, bits 10..8: the window (12.2). -/
def windowField (w : Word) : BitVec 3 := w.extractLsb' 8 3

/-- COMMAND, bits 31..11: the argument (12.2). -/
def argField (w : Word) : Arg := w.extractLsb' 11 21

/-- The window index a 3-bit field names. -/
def windowOf (b : BitVec 3) : Index8 := b.toFin

/-- The port a 2-bit port code names (12.1). -/
def portOfCode (b : BitVec 2) : Port :=
  if b = 0 then .p0 else if b = 1 then .engine .p1 else if b = 2 then .engine .p2 else .engine .p3

/-- The port codes of 12.1. -/
def portCode : Port → BitVec 2
  | .p0 => 0
  | .engine .p1 => 1
  | .engine .p2 => 2
  | .engine .p3 => 3

/-- The word an aligned address of 30 bits names, as a byte address (R1). -/
def byteAddr (a : BitVec 30) : Word := a ++ 0#2

/-- The byte address `n` bytes above `a`, modulo 4 GiB. -/
def addBytes (a : Word) (n : Nat) : Word := a + BitVec.ofNat 32 n

/-- Bits 31..12 of a byte address: its 4 KiB page (R76). -/
def pageOf (a : Word) : BitVec 20 := a.extractLsb' 12 20

end Sys2Proof.Machine

namespace Sys2Proof

/-- The value of an engine port. -/
def PerEngine.get {α : Type} (b : PerEngine α) : Engine → α
  | .p1 => b.p1
  | .p2 => b.p2
  | .p3 => b.p3

/-- The bank with the value of one engine port replaced. -/
def PerEngine.set {α : Type} (b : PerEngine α) (e : Engine) (a : α) : PerEngine α :=
  match e with
  | .p1 => ⟨a, b.p2, b.p3⟩
  | .p2 => ⟨b.p1, a, b.p3⟩
  | .p3 => ⟨b.p1, b.p2, a⟩

/-- The bank with a function applied to every value. -/
def PerEngine.map {α β : Type} (f : α → β) (b : PerEngine α) : PerEngine β :=
  ⟨f b.p1, f b.p2, f b.p3⟩

/-- The values of the engine ports, P1 first. -/
def PerEngine.toList {α : Type} (b : PerEngine α) : List α := [b.p1, b.p2, b.p3]

/-- The value of a port. -/
def PerPort.get {α : Type} (b : PerPort α) : Port → α
  | .p0 => b.p0
  | .engine e => b.engines.get e

/-- The bank with the value of one port replaced. -/
def PerPort.set {α : Type} (b : PerPort α) (p : Port) (a : α) : PerPort α :=
  match p with
  | .p0 => ⟨a, b.engines⟩
  | .engine e => ⟨b.p0, b.engines.set e a⟩

/-- The bank with a function applied to every value. -/
def PerPort.map {α β : Type} (f : α → β) (b : PerPort α) : PerPort β :=
  ⟨f b.p0, b.engines.map f⟩

/-- The value at an index. -/
def Eight.get {α : Type} (b : Eight α) : Index8 → α
  | 0 => b.x0
  | 1 => b.x1
  | 2 => b.x2
  | 3 => b.x3
  | 4 => b.x4
  | 5 => b.x5
  | 6 => b.x6
  | 7 => b.x7

/-- The bank with the value at an index replaced. -/
def Eight.set {α : Type} (b : Eight α) (i : Index8) (a : α) : Eight α :=
  match i with
  | 0 => { b with x0 := a }
  | 1 => { b with x1 := a }
  | 2 => { b with x2 := a }
  | 3 => { b with x3 := a }
  | 4 => { b with x4 := a }
  | 5 => { b with x5 := a }
  | 6 => { b with x6 := a }
  | 7 => { b with x7 := a }

/-- The bank with a function applied to every value. -/
def Eight.map {α β : Type} (f : α → β) (b : Eight α) : Eight β :=
  ⟨f b.x0, f b.x1, f b.x2, f b.x3, f b.x4, f b.x5, f b.x6, f b.x7⟩

/-- The bank of the values of a function of the index. -/
def Eight.build {α : Type} (f : Index8 → α) : Eight α :=
  ⟨f 0, f 1, f 2, f 3, f 4, f 5, f 6, f 7⟩

/-- The values, index 0 first. -/
def Eight.toList {α : Type} (b : Eight α) : List α := [b.x0, b.x1, b.x2, b.x3, b.x4, b.x5, b.x6, b.x7]

/-- The indexes, 0 first. -/
def allIndexes : List Index8 := [0, 1, 2, 3, 4, 5, 6, 7]

/-- The four ports, P0 first. -/
def allPorts : List Port := [.p0, .engine .p1, .engine .p2, .engine .p3]

/-- The three engine ports, P1 first. -/
def allEngines : List Engine := [.p1, .p2, .p3]

end Sys2Proof
end

