-- ==== Sys2Proof/Config.lean ====
section
/-! DEFINITION. What is fixed for the part: its capacities, and the free value the spec leaves open. -/

namespace Sys2Proof

/-- A free choice between two orders that the spec leaves open: no proof can see its value. It is applied to
the counter `freeCounter` of State, a fresh place for each use (notes/assumptions/9, 10 and 25). -/
opaque Config.freeBit : Nat → Bool

/-- The depth of a port queue (R2). -/
def Config.queueDepth : Nat := 4

/-- The most requests issued and unanswered on the memory port (R106). -/
def Config.issueLimit : Nat := 8

/-- The depth of the staging FIFO (R128). -/
def Config.stagingDepth : Nat := 4

/-- The bytes of the control block (R155). -/
def Config.controlBlockBytes : Nat := 256

end Sys2Proof
end

