-- ==== Sys2Proof/Machine/State.lean ====
section
/-! DEFINITION. The state of the FZ408, block by block as the manual names it, the two kinds of stop, and the
state after reset. -/

namespace Sys2Proof.Machine

/-! ### Faults, responses and records -/

/-- The thirteen fault kinds (8.1). -/
inductive FaultKind where
  | noWindow | rights | limit | split | zone | hole | revoked | tableError | memoryError | deferredWrite
  | lockSequence | lockBroken | storm
  deriving DecidableEq, Repr

/-- The refusal codes of a REFUSED response (R5). -/
inductive RefusalCode where
  | fault (k : FaultKind)
  | notActive | halted | disabled | blocked | quiet | lockLost
  deriving DecidableEq, Repr

/-- The responses to an initiator (R5). -/
inductive Response where
  | done (data : List Word)
  | refused (c : RefusalCode)
  | memoryError
  deriving DecidableEq, Repr

/-- A fault record (R122). -/
structure FaultRecord where
  kind     : FaultKind
  port     : Port
  window   : Option Index8
  access   : Access
  beats    : Nat
  repeats  : BitVec 8
  logical  : Word
  physical : Option Word
  selector : Option Selector
  time     : Micros
  deriving DecidableEq, Repr

/-- A staged record with its write state: PENDING, or WRITING when `writing` (R128). -/
structure Staged where
  record  : FaultRecord
  writing : Bool
  deriving DecidableEq, Repr

/-! ### Port Units -/

/-- A piece: a physical address, a beat count, and for writes the data and lanes of its beats (3.8). -/
structure Piece where
  addr  : Word
  beats : Nat
  data  : List Beat
  deriving DecidableEq, Repr

/-- The window and the selector under which an engine request was admitted (R56). -/
structure Via where
  window   : Index8
  selector : Selector
  deriving DecidableEq, Repr

/-- What admission fixes in an entry (R12, R56, R92): its place in the port's admission order (a second piece takes
the next place), its pieces, and for an engine port its window and selector. `opensLock` is clear in a LOCK_READ
marked to open no lock (R115). -/
structure Admitted where
  place     : Nat
  first     : Piece
  second    : Option Piece
  via       : Option Via
  opensLock : Bool
  deriving DecidableEq, Repr

/-- The phase of a queue entry (R3). In ISSUED, `secondGranted` says whether the second piece has been granted
and `firstAnswer` holds the answer to the first piece while the second is awaited (R16). -/
inductive Phase where
  | waiting
  | admitted (a : Admitted)
  | issued (a : Admitted) (secondGranted : Bool) (firstAnswer : Option Answer)
  | decided (r : Response)
  deriving DecidableEq, Repr

/-- An entry of a port queue (R3). -/
structure QEntry where
  req   : Request
  phase : Phase
  deriving DecidableEq, Repr

/-- The causes of a hold at admission (R6). `configureLapsed` holds nothing: it says that a change of the port state
ended the entry's hold for CONFIGURE_PORT while that command goes on (R148), and that the entry's fresh admission is
still to be taken. -/
inductive Hold where
  | loading
  | reloadMap
  | configurePort
  | configureLapsed
  | window (w : Index8)
  | bufferSpace
  deriving DecidableEq, Repr

/-- What each Port Unit holds for its link and queue (R2, R4, R6, R92). `given` is the model's record of the
responses given on the link since reset (notes/assumptions/18). -/
structure PortUnit where
  queue     : List QEntry
  link      : Option Request
  given     : List Response
  hold      : Option Hold
  nextPlace : Nat
  deriving DecidableEq, Repr

/-! ### Engine ports: port state, settings, windows -/

/-- The port states of an engine port (R144). -/
inductive PortState where
  | disabled | opened | blocked | quiet
  deriving DecidableEq, Repr

/-- The port settings in force (R145); `block` is error mode BLOCK, and clear it is RECORD. -/
structure Settings where
  enable    : Bool
  block     : Bool
  high      : BitVec 8
  low       : BitVec 8
  lockLimit : BitVec 8
  deriving DecidableEq, Repr

/-- The KIND of a descriptor, with the fields that take part only in a ROTATING one (R25). -/
inductive Kind where
  | linear
  | rotating (head tail middle : Nat) (initial : Arg)
  deriving DecidableEq, Repr

/-- The checked descriptor a window holds (R29); sizes in granules. -/
structure Checked where
  kind  : Kind
  read  : Bool
  write : Bool
  lock  : Bool
  base  : Word
  size  : Nat
  deriving DecidableEq, Repr

/-- The purpose of a descriptor fetch (R34). -/
inductive Purpose where
  | load | refetch
  deriving DecidableEq, Repr

/-- The window states, each with what the window holds in it (R34); `flag` is the refetch flag. -/
inductive WindowState where
  | empty
  | fetching (purpose : Purpose) (selector : Selector) (flag : Bool)
  | valid (selector : Selector) (d : Checked)
  | stale (selector : Selector) (d : Checked)
  deriving DecidableEq, Repr

/-- A window (R34). -/
structure Window where
  state    : WindowState
  rotation : Arg
  deriving DecidableEq, Repr

/-- What the FZ408 holds for an engine port beside its queue (R34, R144, R145, R150). -/
structure EngineUnit where
  state    : PortState
  settings : Settings
  storm    : BitVec 8
  windows  : Eight Window
  deriving DecidableEq, Repr

/-- An item of the fetch list (R61); `current` is standing CURRENT, and clear it is CANCELLED. -/
structure Fetch where
  engine   : Engine
  window   : Index8
  selector : Selector
  purpose  : Purpose
  current  : Bool
  deriving DecidableEq, Repr

/-! ### Geometry, map, posted writes -/

/-- The table geometry in force (R21). -/
structure TableGeometry where
  base  : Word
  count : Nat
  deriving DecidableEq, Repr

/-- The ring geometry in force (R132); `size` is the number of entries. -/
structure RingGeometry where
  base : Word
  size : Nat
  deriving DecidableEq, Repr

/-- The three attributes, and the fourth encoding that names none (R75). -/
inductive Attr where
  | ordered | posted | hole | fourth
  deriving DecidableEq, Repr

/-- An attribute range (R75). -/
structure AttrRange where
  valid : Bool
  base  : BitVec 20
  mask  : BitVec 20
  attr  : Attr
  deriving DecidableEq, Repr

/-- The Attribute Map's ranges and default (R75). The zone bounds follow from the anchor and the geometries in
force (R78) and are not stored twice. -/
structure AttributeMap where
  ranges        : Eight AttrRange
  defaultPosted : Bool
  deriving DecidableEq, Repr

/-- An occupied entry of the Posted Write Buffer (R89); `issued` is entry state ISSUED, and clear it is WAITING. -/
structure Posted where
  port    : Port
  place   : Nat
  logical : Word
  piece   : Piece
  via     : Option Via
  issued  : Bool
  mark    : Bool
  deriving DecidableEq, Repr

/-! ### Memory port and controller-originated requests -/

/-- The controller-originated requests (R15, R107). -/
inductive CtlKind where
  | startRead
  | reloadRead
  | portRead
  | fetch
  | recordWrite
  | statusUpdate
  | resultWrite
  deriving DecidableEq, Repr

/-- A controller-originated request on its queue, its contents fixed when raised but for a status update's,
which are taken at its grant (R107). `cancelled` marks a configuration read whose command HALT entry has ended
(R88, R166). -/
structure CtlRequest where
  kind      : CtlKind
  addr      : Word
  beats     : Nat
  data      : List Beat
  cancelled : Bool
  deriving DecidableEq, Repr

/-- Who an issued request belongs to (R106). A piece of a queue entry is named by its port and the entry's
place; a buffer entry by its number less one. -/
inductive Owner where
  | piece (p : Port) (place : Nat)
  | posted (i : Index8)
  | ctl (k : CtlKind)
  deriving DecidableEq, Repr

/-- A request on the issued list (R104, R15). `void` marks an answer that has no effect: a cancelled
configuration read, an orphaned ring write, and a status update or result write whose ERROR is ignored
(R137, R166, R167). -/
structure Issued where
  write : Bool
  addr  : Word
  beats : Nat
  data  : List Beat
  owner : Owner
  void  : Bool
  deriving DecidableEq, Repr

/-! ### Lock Control -/

/-- The lock record while an owner is present (R110). -/
structure Lock where
  owner : Port
  word  : Word
  start : Micros
  limit : BitVec 8
  deriving DecidableEq, Repr

/-- What a sequence record takes from the admitted LOCK_READ (R110). -/
structure SeqInfo where
  word    : Word
  logical : Word
  via     : Option Via
  deriving DecidableEq, Repr

/-- A port's sequence record; LOST can be set only in FREE (R110). -/
inductive Sequence where
  | free (lost : Bool)
  | opening (i : SeqInfo)
  | holding (i : SeqInfo)
  | closing (i : SeqInfo)
  deriving DecidableEq, Repr

/-! ### Command Unit and Interrupt Unit -/

/-- The operating states (R160). -/
inductive OpState where
  | boot | loading | active | stopping | halted
  deriving DecidableEq, Repr

/-- The command in progress (R158), with what it has received so far. START records the state it was taken in
(R161); START and RELOAD_MAP hold the answer to their first read while the second is awaited (R161, R87);
LOAD_WINDOW and CONFIGURE_PORT name what they act on (R37, R168). -/
inductive Command where
  | start (prior : OpState) (first : Option Answer)
  | stop
  | loadWindow (e : Engine) (w : Index8)
  | configurePort (p : Port)
  | reloadMap (first : Option Answer)
  | drain
  deriving DecidableEq, Repr

/-- A write of the COMMAND word as the Command Unit reads it (R157, R158). -/
inductive CommandWrite where
  | ignored
  | malformed
  | unknown (code : BitVec 6)
  | start
  | stop
  | loadWindow (p : Port) (w : Index8) (arg : Arg)
  | clearWindow (p : Port) (w : Index8)
  | rotate (p : Port) (w : Index8) (arg : Arg)
  | invalidate (arg : Arg)
  | invalidateAll
  | releasePort (p : Port)
  | configurePort (p : Port)
  | reloadMap
  | drain
  deriving DecidableEq, Repr

/-- The outcomes of a command (R159). -/
inductive CommandOutcome where
  | inProgress | ok | malformed | unknownCommand | wrongState | badArgument | notRotating | lockHeld | readError
  | descriptorRefused | configInvalid
  deriving DecidableEq, Repr

/-- The five latched causes (R170). -/
structure Causes where
  overflow : Bool
  done     : Bool
  overrun  : Bool
  misuse   : Bool
  halt     : Bool
  deriving DecidableEq, Repr

/-- The five enables (R172). -/
structure Enables where
  queue    : Bool
  overflow : Bool
  done     : Bool
  overrun  : Bool
  misuse   : Bool
  deriving DecidableEq, Repr

/-! ### The state -/

end Sys2Proof.Machine

namespace Sys2Proof.Machine

/-- The state of the FZ408 (INVENTORY.md, State), with the queue of commands that are waiting. -/
structure State where
  /-- Port Units of P0 to P3 (R2, R3, R6). -/
  ports : PerPort PortUnit
  /-- Port state, settings, storm counter and windows of P1 to P3 (R34, R144, R145, R150). -/
  engines : PerEngine EngineUnit
  /-- The lock limit of P0 (R110, R145). -/
  p0LockLimit : BitVec 8
  /-- The fetch list (R61). -/
  fetches : List Fetch
  /-- The table geometry in force (R21). -/
  table : Option TableGeometry
  /-- The attribute ranges and the default in force (R75). -/
  map : AttributeMap
  /-- The Posted Write Buffer (R89). -/
  buffer : Eight (Option Posted)
  /-- The issued list, oldest first (R104). -/
  issued : List Issued
  /-- The round-robin pointer (R104). -/
  roundRobin : Port
  /-- The controller-originated queue, oldest first (R107). -/
  ctl : List CtlRequest
  /-- The lock record (R110). -/
  lock : Option Lock
  /-- The sequence records (R110). -/
  seqs : PerPort Sequence
  /-- The ring geometry in force (R132). -/
  ring : Option RingGeometry
  /-- The staging FIFO, oldest first (R128). -/
  staged : List Staged
  /-- The producer index (R133). -/
  producer : Nat
  /-- The consumer index (R133). -/
  consumer : Nat
  /-- INTERVAL in force (R152). -/
  interval : Micros
  /-- The interval timer: the count of its next expiry, or stopped (R152). -/
  nextExpiry : Option Micros
  /-- The operating state (R160). -/
  opState : OpState
  /-- The command in progress (R158). -/
  command : Option Command
  /-- The reporting flag (R169). -/
  reporting : Bool
  /-- Whether a field of the status word or the producer changed in the event being taken; clear between events
  (R169; the model's own, notes/assumptions/15). -/
  statusChanged : Bool
  /-- The latched causes (R170). -/
  causes : Causes
  /-- The enables (R172). -/
  enables : Enables
  /-- The pin IRQ_N, asserted or not (R173). -/
  irqAsserted : Bool
  /-- The timebase (R177). -/
  now : Micros
  /-- The sampled ANC straps (R155). -/
  anc : BitVec 12
  /-- The sampled DIV straps (R177). -/
  div : BitVec 3
  /-- RESET_N is asserted (R177). -/
  inReset : Bool
  /-- The model's own: how many free values have been used (notes/assumptions/25). -/
  freeCounter : Nat
  /-- The model's own: the commands that are waiting, first in first out. -/
  pending : List Instr
  deriving DecidableEq, Repr

/-- The reasons the machine stops. Both are raised by the answer rows alone, when the memory controller does what
R15 says it never does, and the spec gives no effect for it; both are safe (the model stops where nothing is said). -/
inductive Fault where
  /-- Memory answered while no request is issued, or the oldest issued request is not one of the kind the row
  names (R15, R106). Raised by every answer row. Safe. -/
  | answerWithoutRequest
  /-- Memory answered OK with another number of words than the request's beats (R15). Raised by the rows that
  carry read data. Safe. -/
  | answerDataLength
  deriving DecidableEq, Repr

/-- The reasons the model has no meaning for a command. -/
inductive Refusal where
  /-- A command the model does not model yet; raised by no arm of `exec`. Safe. -/
  | notModelled (mnemonic : String)
  /-- A request the link has no encoding for (R1): no beats or more than 16, a locked kind of several beats, or
  data that does not fit the beats. Raised by REQUEST_ACCEPT. Safe. -/
  | noLinkEncoding
  deriving DecidableEq, Repr

/-! ### Reset values -/

/-- A Port Unit after reset: queue, link and hold empty (R3, R19). -/
def PortUnit.reset : PortUnit := ⟨[], none, [], none, 0⟩

/-- The settings of an engine port after reset (R145). -/
def Settings.reset : Settings := ⟨false, false, 0, 0, 16⟩

/-- An empty window (R34). -/
def Window.reset : Window := ⟨.empty, 0⟩

/-- Eight of the same. -/
def eightOf {α : Type} (a : α) : Eight α := ⟨a, a, a, a, a, a, a, a⟩

/-- Three of the same. -/
def threeOf {α : Type} (a : α) : PerEngine α := ⟨a, a, a⟩

/-- One of the same for each port. -/
def portsOf {α : Type} (a : α) : PerPort α := ⟨a, threeOf a⟩

/-- An engine port after reset: DISABLED, settings as R145 gives, counter 0, windows EMPTY (R34, R144, R150). -/
def EngineUnit.reset : EngineUnit := ⟨.disabled, Settings.reset, 0, eightOf Window.reset⟩

/-- An attribute range after reset: valid 0 (R75). DESIGN CHOICE (notes/assumptions/3): base, mask and code, for
which the spec gives no value, are 0; unsafe. -/
def AttrRange.reset : AttrRange := ⟨false, 0, 0, .ordered⟩

/-- The machine right after the release of RESET_N, in BOOT (R160). DESIGN CHOICE (notes/assumptions/1): the
strap samples, which the board gives, are 0; unsafe. -/
def State.reset : State where
  ports := portsOf PortUnit.reset
  engines := threeOf EngineUnit.reset
  p0LockLimit := 16
  fetches := []
  table := none
  map := ⟨eightOf AttrRange.reset, false⟩
  buffer := eightOf none
  issued := []
  roundRobin := .engine .p3
  ctl := []
  lock := none
  seqs := portsOf (.free false)
  ring := none
  staged := []
  producer := 0
  consumer := 0
  interval := 0
  nextExpiry := none
  opState := .boot
  command := none
  reporting := false
  statusChanged := false
  causes := ⟨false, false, false, false, false⟩
  enables := ⟨false, false, false, false, false⟩
  irqAsserted := false
  now := 0
  anc := 0
  div := 0
  inReset := false
  freeCounter := 0
  pending := []

end Sys2Proof.Machine
end

