-- ==== Sys2Proof/WellFormed.lean ====
section
/-! DEFINITION. What the links and the memory port can carry, as Bool checks on the commands' operands. -/

namespace Sys2Proof

open Machine (codeField)

/-- The locked kinds, which always name one word (R1). -/
def Access.isLocked : Access → Bool
  | .read | .write => false
  | .lockRead | .unlockWrite | .unlock => true

/-- The kinds that carry data from the initiator (R1). -/
def Access.isWrite : Access → Bool
  | .write | .unlockWrite => true
  | .read | .lockRead | .unlock => false

/-- The kinds answered with data on DONE (R1). -/
def Access.isRead : Access → Bool
  | .read | .lockRead => true
  | .write | .unlockWrite | .unlock => false

/-- The requests the link has an encoding for (R1): 1 to 16 beats, one beat for a locked kind, one word and its
lanes per beat for a kind that writes and none for the others. -/
def Request.wf (r : Request) : Bool :=
  decide (1 ≤ r.beats) && decide (r.beats ≤ 16) && (!r.kind.isLocked || decide (r.beats = 1)) &&
    decide (r.data.length = if r.kind.isWrite then r.beats else 0)

/-- The answers the memory port can carry: at most 16 words (R15). -/
def Answer.wf : Answer → Bool
  | .ok d => decide (d.length ≤ 16)
  | .error => true

/-- A command is well formed when its operands are ones the event it names can carry. -/
def Instr.wf : Instr → Bool
  | .requestAccept _ r => r.wf
  | .pieceAnswer a | .descriptorFetchAnswer a | .startReadAnswer a | .reloadMapReadAnswer a
  | .configurePortReadAnswer a => a.wf
  | .unknownCommand w => decide (12 ≤ (codeField w).toNat)
  | .malformed l _ => decide (l ≠ 0 ∧ l ≠ 15)
  | .ignoredCommand w => decide (codeField w = 0)
  | .commandOverrun l w => decide (l ≠ 0) && !(decide (l = 15) && decide (codeField w = 0))
  | .consumer l _ | .enable l _ | .acknowledge l _ => decide (l ≠ 0)
  | .resetAssert | .resetRelease _ _ | .timebaseTick | .admission _ | .grant | .postedEntryAnswer _
  | .ringWriteAnswer _ | .statusUpdateAnswer _ | .resultWriteAnswer _ | .lockTimerExpiry | .intervalExpiry
  | .start | .stop | .loadWindow _ _ _ | .clearWindow _ _ | .rotate _ _ _ | .invalidate _ | .invalidateAll
  | .releasePort _ | .configurePort _ | .reloadMap | .drain => true

end Sys2Proof
end

