-- ==== Sys2Proof/Machine/Operands.lean ====
section
/-! DEFINITION. The formats of chapter 12: what the FZ408 reads from command words, configuration words and
descriptors, and the words it writes; the byte ranges and addresses that requests cover. -/

namespace Sys2Proof.Machine

/-! ### Codes of 12.1 -/

/-- The access codes (12.1). -/
def accessCode : Access → BitVec 3
  | .read => 0
  | .write => 1
  | .lockRead => 2
  | .unlockWrite => 3
  | .unlock => 4

/-- The fault kind codes (12.1). -/
def faultKindCode : FaultKind → BitVec 4
  | .noWindow => 1
  | .rights => 2
  | .limit => 3
  | .split => 4
  | .zone => 5
  | .hole => 6
  | .revoked => 7
  | .tableError => 8
  | .memoryError => 9
  | .deferredWrite => 10
  | .lockSequence => 11
  | .lockBroken => 12
  | .storm => 13

/-- The attribute codes (12.1). -/
def attrOfCode (b : BitVec 2) : Attr :=
  if b = 0 then .ordered else if b = 1 then .posted else if b = 2 then .hole else .fourth

/-- The operating state codes (12.1). -/
def opStateCode : OpState → BitVec 3
  | .boot => 0
  | .loading => 1
  | .active => 2
  | .stopping => 3
  | .halted => 4

/-- The port state codes (12.1). -/
def portStateCode : PortState → BitVec 2
  | .disabled => 0
  | .opened => 1
  | .blocked => 2
  | .quiet => 3

/-- The outcome codes (12.1). -/
def outcomeCode : CommandOutcome → BitVec 8
  | .inProgress => 1
  | .ok => 2
  | .malformed => 3
  | .unknownCommand => 4
  | .wrongState => 5
  | .badArgument => 6
  | .notRotating => 7
  | .lockHeld => 8
  | .readError => 9
  | .descriptorRefused => 10
  | .configInvalid => 11

/-! ### Words the FZ408 writes -/

/-- The RESULT word (12.2): code in 7..0, outcome in 15..8, detail in 19..16. -/
def resultWord (code : BitVec 8) (o : CommandOutcome) (detail : Nat) : Word :=
  0#12 ++ BitVec.ofNat 4 detail ++ outcomeCode o ++ code

/-- The PRODUCER word (12.2). -/
def producerWord (producer : Nat) : Word := 0#22 ++ BitVec.ofNat 10 producer

/-- Word 0 of a fault record (12.4). -/
def recordWord0 (r : FaultRecord) : Word :=
  0#4 ++ r.repeats ++ BitVec.ofNat 4 (r.beats - 1) ++ 0#1 ++ accessCode r.access ++
    (r.window.elim 0#3 fun w => BitVec.ofNat 3 w.val) ++ BitVec.ofBool r.physical.isSome ++
    BitVec.ofBool r.selector.isSome ++ BitVec.ofBool r.window.isSome ++ portCode r.port ++ faultKindCode r.kind

/-- Word 1 of a fault record (12.4). -/
def recordWord1 (r : FaultRecord) : Word := 0#8 ++ r.selector.getD 0 ++ r.time

/-- The four words of a fault record in ring order (12.4, R176). -/
def recordWords (r : FaultRecord) : List Word :=
  [recordWord0 r, recordWord1 r, r.logical, r.physical.getD 0]

/-- Every controller write covers all the bytes it writes (R176). -/
def fullBeats (ws : List Word) : List Beat := ws.map fun w => ⟨w, 15⟩

/-! ### Command words -/

/-- A COMMAND write as the Command Unit reads it, for lanes not all clear (R157 cases 1, 3 and 4, and the codes of
R158). -/
def commandOf (lanes : Lanes) (w : Word) : CommandWrite :=
  if lanes ≠ 15 then .malformed
  else match (codeField w).toNat with
    | 0 => .ignored
    | 1 => .start
    | 2 => .stop
    | 3 => .loadWindow (portOfCode (portField w)) (windowOf (windowField w)) (argField w)
    | 4 => .clearWindow (portOfCode (portField w)) (windowOf (windowField w))
    | 5 => .rotate (portOfCode (portField w)) (windowOf (windowField w)) (argField w)
    | 6 => .invalidate (argField w)
    | 7 => .invalidateAll
    | 8 => .releasePort (portOfCode (portField w))
    | 9 => .configurePort (portOfCode (portField w))
    | 10 => .reloadMap
    | 11 => .drain
    | _ => .unknown (codeField w)

/-- A COMMAND word from its fields (12.2). -/
def commandWordOf (code : BitVec 6) (p : Port) (w : Index8) (arg : Arg) : Word :=
  arg ++ BitVec.ofNat 3 w.val ++ portCode p ++ code

/-- The code a command's result carries (R158): 00h for MALFORMED. -/
def commandCode : CommandWrite → BitVec 8
  | .ignored => 0
  | .malformed => 0
  | .unknown c => c.setWidth 8
  | .start => 1
  | .stop => 2
  | .loadWindow _ _ _ => 3
  | .clearWindow _ _ => 4
  | .rotate _ _ _ => 5
  | .invalidate _ => 6
  | .invalidateAll => 7
  | .releasePort _ => 8
  | .configurePort _ => 9
  | .reloadMap => 10
  | .drain => 11

/-! ### Descriptors -/

/-- A descriptor as fetched, field by field (12.3, R23, R24). -/
structure Descriptor where
  valid    : Bool
  rotating : Bool
  read     : Bool
  write    : Bool
  lock     : Bool
  ports    : PerEngine Bool
  base     : Word
  size     : Nat
  head     : Nat
  tail     : Nat
  initial  : Arg
  deriving DecidableEq, Repr

/-- The descriptor in four words (12.3). -/
def descriptorOf (w0 w1 w2 w3 : Word) : Descriptor where
  valid := bitOf w0 0
  rotating := bitOf w0 1
  read := bitOf w0 2
  write := bitOf w0 3
  lock := bitOf w0 4
  ports := ⟨bitOf w0 5, bitOf w0 6, bitOf w0 7⟩
  base := (w0.extractLsb' 8 24) ++ 0#8
  size := (w1.extractLsb' 0 21).toNat + 1
  head := (w2.extractLsb' 0 16).toNat
  tail := (w2.extractLsb' 16 16).toNat
  initial := w3.extractLsb' 0 21

/-- M, the length in granules of the middle part (R23). -/
def Descriptor.middle (d : Descriptor) : Nat := d.size - d.head - d.tail

/-- The descriptor checks for a target port, in order; 0 when all are passed (R28). -/
def Descriptor.detail (d : Descriptor) (e : Engine) : Nat :=
  if d.valid = false then 1
  else if d.ports.get e = false then 2
  else if d.base.toNat + d.size * 256 > 2 ^ 32 then 3
  else if d.rotating && decide (d.size ≤ d.head + d.tail) then 4
  else if d.rotating && decide (d.middle ≤ d.initial.toNat) then 5
  else 0

/-- The checked descriptor handed back (R29). -/
def Descriptor.checked (d : Descriptor) : Checked where
  kind := if d.rotating then .rotating d.head d.tail d.middle d.initial else .linear
  read := d.read
  write := d.write
  lock := d.lock
  base := d.base
  size := d.size

/-- The descriptor in the words of a fetch's answer. -/
def descriptorOfWords (ws : List Word) : Descriptor :=
  descriptorOf (ws.getD 0 0) (ws.getD 1 0) (ws.getD 2 0) (ws.getD 3 0)

/-! ### Configuration words -/

/-- An attribute range from its BASE and MASK words (12.2, R75). -/
def rangeOf (base mask : Word) : AttrRange where
  valid := bitOf base 0
  base := pageOf base
  mask := pageOf mask
  attr := attrOfCode (base.extractLsb' 1 2)

/-- The eight ranges from their sixteen words, BASE and MASK by turns (12.2). -/
def rangesOf (ws : List Word) : Eight AttrRange :=
  Eight.build fun i => rangeOf (ws.getD (2 * i.val) 0) (ws.getD (2 * i.val + 1) 0)

/-- The settings of an engine port from its settings word (12.2). A port whose H is 0 holds L 0 (R162, R168). -/
def settingsOf (w : Word) : Settings where
  enable := bitOf w 0
  block := bitOf w 1
  high := w.extractLsb' 8 8
  low := if w.extractLsb' 8 8 = 0#8 then 0 else w.extractLsb' 16 8
  lockLimit := w.extractLsb' 24 8

/-- Check 9 on a settings word: H not 0 and L equal to or more than H (R162). -/
def marksInvalid (w : Word) : Bool :=
  decide (w.extractLsb' 8 8 ≠ 0#8) && decide ((w.extractLsb' 8 8).toNat ≤ (w.extractLsb' 16 8).toNat)

/-- Check 10 on a settings word: lock limit 0 (R162). -/
def limitInvalid (w : Word) : Bool := decide (w.extractLsb' 24 8 = 0#8)

/-- The configuration START reads (R161, 12.2). -/
structure Configuration where
  ringBase   : Word
  sizeCode   : BitVec 4
  tableBase  : Word
  tableCount : Nat
  global     : Word
  portWords  : PerPort Word
  rangeWords : List Word
  deriving DecidableEq, Repr

/-- The configuration in the 28 words at offsets 20h to 8Fh (R161, R155). -/
def configurationOf (ws : List Word) : Configuration where
  ringBase := ws.getD 0 0
  sizeCode := (ws.getD 1 0).extractLsb' 0 4
  tableBase := ws.getD 2 0
  tableCount := ((ws.getD 3 0).extractLsb' 0 9).toNat
  global := ws.getD 4 0
  portWords := ⟨ws.getD 5 0, ⟨ws.getD 6 0, ws.getD 7 0, ws.getD 8 0⟩⟩
  rangeWords := (ws.drop 12).take 16

/-- GLOBAL, bit 0: the default attribute (12.2). -/
def defaultPostedOf (global : Word) : Bool := bitOf global 0

/-- GLOBAL, bits 31..16: INTERVAL (12.2). -/
def intervalOf (global : Word) : Micros := global.extractLsb' 16 16

/-- The number of entries a size code names (R132). -/
def ringSizeOf (code : BitVec 4) : Nat := 16 * 2 ^ code.toNat

/-! ### Byte ranges, the zone and attributes -/

/-- A byte range by its start and length. -/
abbrev ByteRange := Nat × Nat

/-- A byte address lies in a range. -/
def ByteRange.holds (r : ByteRange) (a : Word) : Bool :=
  decide (r.1 ≤ a.toNat) && decide (a.toNat < r.1 + r.2)

/-- Two ranges have a byte in common. -/
def ByteRange.overlaps (r t : ByteRange) : Bool :=
  decide (r.1 < t.1 + t.2) && decide (t.1 < r.1 + r.2)

/-- A range extends past 4 GiB. -/
def ByteRange.pastTop (r : ByteRange) : Bool := decide (2 ^ 32 < r.1 + r.2)

/-- The 4 KiB pages that hold a byte of a range, for a range that is not empty. -/
def ByteRange.pages (r : ByteRange) : List (BitVec 20) :=
  (List.range ((r.1 + r.2 - 1) / 4096 - r.1 / 4096 + 1)).map fun i => BitVec.ofNat 20 (r.1 / 4096 + i)

/-- The anchor: the sampled ANC value times 1 MiB (R155). -/
def anchorOf (anc : BitVec 12) : Word := anc ++ 0#20

/-- The control block's range (R155). -/
def controlBlockRange (anc : BitVec 12) : ByteRange := ((anchorOf anc).toNat, Config.controlBlockBytes)

/-- The table range (R20). -/
def TableGeometry.range (t : TableGeometry) : ByteRange := (t.base.toNat, 16 * t.count)

/-- The ring range (R132). -/
def RingGeometry.range (r : RingGeometry) : ByteRange := (r.base.toNat, 16 * r.size)

/-- The table geometry of a configuration. -/
def Configuration.table (c : Configuration) : TableGeometry := ⟨c.tableBase, c.tableCount⟩

/-- The ring geometry of a configuration. -/
def Configuration.ring (c : Configuration) : RingGeometry := ⟨c.ringBase, ringSizeOf c.sizeCode⟩

/-- The zone a configuration defines (R78, R162). -/
def Configuration.zone (c : Configuration) (anc : BitVec 12) : List ByteRange :=
  [controlBlockRange anc, c.table.range, c.ring.range]

/-- A range matches a page (R76). -/
def AttrRange.hits (r : AttrRange) (page : BitVec 20) : Bool :=
  r.valid && decide (page &&& r.mask = r.base &&& r.mask)

/-- The attribute of a byte: the most restrictive among the ranges that match its page, or the default (R77). A
range in force never carries the fourth encoding (R75), and it gives no attribute. -/
def AttributeMap.attrOf (m : AttributeMap) (a : Word) : Attr :=
  let hit := m.ranges.toList.filter fun r => r.hits (pageOf a)
  if hit.any (fun r => r.attr = .hole) then .hole
  else if hit.any (fun r => r.attr = .ordered) then .ordered
  else if hit.any (fun r => r.attr = .posted) then .posted
  else if m.defaultPosted then .posted else .ordered

/-- A valid range carries the fourth encoding (check 7, R162, R87). -/
def fourthInvalid (rs : Eight AttrRange) : Bool :=
  rs.toList.any fun r => r.valid && decide (r.attr = .fourth)

/-- A valid HOLE range matches a page that holds a byte of the zone (check 8, R162, R87). -/
def holeInvalid (rs : Eight AttrRange) (zone : List ByteRange) : Bool :=
  rs.toList.any fun r => decide (r.attr = .hole) && zone.any fun z => z.pages.any fun p => r.hits p

/-- The checks of START on a configuration, in order; 0 when all are passed (R162). The ranges of check 5 are
taken without wrapping at 4 GiB (DEDUCED, notes/assumptions/29). -/
def Configuration.detail (c : Configuration) (anc : BitVec 12) : Nat :=
  let cb := controlBlockRange anc
  let t := c.table.range
  let r := c.ring.range
  if 6 < c.sizeCode.toNat then 1
  else if c.ringBase.extractLsb' 0 8 ≠ 0#8 then 2
  else if c.tableCount = 0 ∨ 256 < c.tableCount then 3
  else if c.tableBase.extractLsb' 0 8 ≠ 0#8 then 4
  else if cb.overlaps t || cb.overlaps r || t.overlaps r then 5
  else if t.pastTop || r.pastTop then 6
  else if fourthInvalid (rangesOf c.rangeWords) then 7
  else if holeInvalid (rangesOf c.rangeWords) (c.zone anc) then 8
  else if c.portWords.engines.toList.any marksInvalid then 9
  else if limitInvalid c.portWords.p0 || c.portWords.engines.toList.any limitInvalid then 10
  else if intervalOf c.global = 0 then 11
  else 0

/-! ### Requests, pieces and the bytes they cover -/

end Sys2Proof.Machine

/-- The byte address a request carries (R1). -/
def Sys2Proof.Request.addr (r : Sys2Proof.Request) : Sys2Proof.Word := Sys2Proof.Machine.byteAddr r.wordAddr

namespace Sys2Proof.Machine

/-- The word addresses of consecutive beats, wrapping at 4 GiB (R1). -/
def beatAddrs (a : Word) (beats : Nat) : List Word := (List.range beats).map fun i => addBytes a (4 * i)

/-- The byte addresses of consecutive beats, four for each beat (R80, R83). -/
def beatBytes (a : Word) (beats : Nat) : List Word := (List.range (4 * beats)).map fun i => addBytes a i

/-- The word addresses a piece reaches. -/
def Piece.words (p : Piece) : List Word := beatAddrs p.addr p.beats

/-- The byte addresses a piece reaches (R80). -/
def Piece.bytes (p : Piece) : List Word := beatBytes p.addr p.beats

/-- The pieces of an admitted request, in piece order. -/
def piecesOf (first : Piece) (second : Option Piece) : List Piece := first :: second.toList

/-- The beats of a written burst with the word address of each. -/
def addressed (a : Word) (data : List Beat) : List (Word × Beat) :=
  (beatAddrs a data.length).zip data

/-- The selectors a write touched: those of the words that lie in the table range (R58). -/
def touchedSelectors (t : TableGeometry) (a : Word) (beats : Nat) : List Nat :=
  ((beatAddrs a beats).filter fun w => ByteRange.holds t.range w).map fun w => (w.toNat - t.base.toNat) / 16

end Sys2Proof.Machine
end

