-- ==== Sys2Proof/Machine/Update.lean ====
section
/-! DEFINITION. The updates of State: one for each field, and the reading and writing of a Port Unit, an engine
port, a window and a sequence record inside them. Every operation changes the state through these. -/

namespace Sys2Proof.Machine

/-- The state with `ports` replaced. -/
def State.setPorts (s : State) (v : PerPort PortUnit) : State := { s with ports := v }

/-- The state with `engines` replaced. -/
def State.setEngines (s : State) (v : PerEngine EngineUnit) : State := { s with engines := v }

/-- The state with `p0LockLimit` replaced. -/
def State.setP0LockLimit (s : State) (v : BitVec 8) : State := { s with p0LockLimit := v }

/-- The state with `fetches` replaced. -/
def State.setFetches (s : State) (v : List Fetch) : State := { s with fetches := v }

/-- The state with `table` replaced. -/
def State.setTable (s : State) (v : Option TableGeometry) : State := { s with table := v }

/-- The state with `map` replaced. -/
def State.setMap (s : State) (v : AttributeMap) : State := { s with map := v }

/-- The state with `buffer` replaced. -/
def State.setBuffer (s : State) (v : Eight (Option Posted)) : State := { s with buffer := v }

/-- The state with `issued` replaced. -/
def State.setIssued (s : State) (v : List Issued) : State := { s with issued := v }

/-- The state with `roundRobin` replaced. -/
def State.setRoundRobin (s : State) (v : Port) : State := { s with roundRobin := v }

/-- The state with `ctl` replaced. -/
def State.setCtl (s : State) (v : List CtlRequest) : State := { s with ctl := v }

/-- The state with `lock` replaced. -/
def State.setLock (s : State) (v : Option Lock) : State := { s with lock := v }

/-- The state with `seqs` replaced. -/
def State.setSeqs (s : State) (v : PerPort Sequence) : State := { s with seqs := v }

/-- The state with `ring` replaced. -/
def State.setRing (s : State) (v : Option RingGeometry) : State := { s with ring := v }

/-- The state with `staged` replaced. -/
def State.setStaged (s : State) (v : List Staged) : State := { s with staged := v }

/-- The state with `producer` replaced. -/
def State.setProducer (s : State) (v : Nat) : State := { s with producer := v }

/-- The state with `consumer` replaced. -/
def State.setConsumer (s : State) (v : Nat) : State := { s with consumer := v }

/-- The state with `interval` replaced. -/
def State.setInterval (s : State) (v : Micros) : State := { s with interval := v }

/-- The state with `nextExpiry` replaced. -/
def State.setNextExpiry (s : State) (v : Option Micros) : State := { s with nextExpiry := v }

/-- The state with `opState` replaced. -/
def State.setOpState (s : State) (v : OpState) : State := { s with opState := v }

/-- The state with `command` replaced. -/
def State.setCommand (s : State) (v : Option Command) : State := { s with command := v }

/-- The state with `reporting` replaced. -/
def State.setReporting (s : State) (v : Bool) : State := { s with reporting := v }

/-- The state with `statusChanged` replaced. -/
def State.setStatusChanged (s : State) (v : Bool) : State := { s with statusChanged := v }

/-- The state with `causes` replaced. -/
def State.setCauses (s : State) (v : Causes) : State := { s with causes := v }

/-- The state with `enables` replaced. -/
def State.setEnables (s : State) (v : Enables) : State := { s with enables := v }

/-- The state with `irqAsserted` replaced. -/
def State.setIrqAsserted (s : State) (v : Bool) : State := { s with irqAsserted := v }

/-- The state with `now` replaced. -/
def State.setNow (s : State) (v : Micros) : State := { s with now := v }

/-- The state with `anc` replaced. -/
def State.setAnc (s : State) (v : BitVec 12) : State := { s with anc := v }

/-- The state with `div` replaced. -/
def State.setDiv (s : State) (v : BitVec 3) : State := { s with div := v }

/-- The state with `inReset` replaced. -/
def State.setInReset (s : State) (v : Bool) : State := { s with inReset := v }

/-- The state with `freeCounter` replaced. -/
def State.setFreeCounter (s : State) (v : Nat) : State := { s with freeCounter := v }

/-- The state with `pending` replaced. -/
def State.setPending (s : State) (v : List Instr) : State := { s with pending := v }

/-- The Port Unit of a port. -/
def State.unit (s : State) (p : Port) : PortUnit := s.ports.get p

/-- The state with the Port Unit of one port replaced. -/
def State.setUnit (s : State) (p : Port) (u : PortUnit) : State := s.setPorts (s.ports.set p u)

/-- The state of an engine port. -/
def State.eng (s : State) (e : Engine) : EngineUnit := s.engines.get e

/-- The state with what one engine port holds replaced. -/
def State.setEng (s : State) (e : Engine) (u : EngineUnit) : State := s.setEngines (s.engines.set e u)

/-- A window of an engine port (R34). -/
def State.window (s : State) (e : Engine) (w : Index8) : Window := (s.eng e).windows.get w

/-- The state with one window replaced. -/
def State.setWindow (s : State) (e : Engine) (w : Index8) (v : Window) : State :=
  s.setEng e { s.eng e with windows := (s.eng e).windows.set w v }

/-- The sequence record of a port (R110). -/
def State.seqOf (s : State) (p : Port) : Sequence := s.seqs.get p

/-- The state with the sequence record of one port replaced. -/
def State.setSeq (s : State) (p : Port) (q : Sequence) : State := s.setSeqs (s.seqs.set p q)

/-- The queue of a port (R2). -/
def State.queueOf (s : State) (p : Port) : List QEntry := (s.unit p).queue

/-- The state with the queue of one port replaced. -/
def State.setQueue (s : State) (p : Port) (q : List QEntry) : State := s.setUnit p { s.unit p with queue := q }

/-- The hold of a port (R6). -/
def State.holdOf (s : State) (p : Port) : Option Hold := (s.unit p).hold

/-- The state with the hold of one port replaced. -/
def State.setHold (s : State) (p : Port) (h : Option Hold) : State := s.setUnit p { s.unit p with hold := h }

end Sys2Proof.Machine
end

