-- ==== Sys2Proof/Machine/Flags.lean ====
section
/-! DEFINITION. The causes, the status word and IRQ_N (chapter 11), and the changes of the fields the status word
shows. Each change notes whether it changed the status word or the producer, for the status update that the
event raises (R169). -/

namespace Sys2Proof.Machine

/-- The QUEUE cause: a level, set exactly while producer and consumer differ (R170). -/
def State.queueCause (s : State) : Bool := decide (s.producer ≠ s.consumer)

/-- The STATUS word (R174, 12.2). -/
def State.statusWord (s : State) : Word :=
  0#10 ++ portStateCode (s.eng .p3).state ++ portStateCode (s.eng .p2).state ++ portStateCode (s.eng .p1).state ++
    0#6 ++ BitVec.ofBool s.causes.halt ++ BitVec.ofBool s.causes.misuse ++ BitVec.ofBool s.causes.overrun ++
    BitVec.ofBool s.causes.done ++ BitVec.ofBool s.causes.overflow ++ BitVec.ofBool s.queueCause ++
    BitVec.ofBool s.command.isSome ++ opStateCode s.opState

/-- IRQ_N is asserted exactly when HALT is set or another cause is set and enabled (R173). -/
def State.irqLevel (s : State) : Bool :=
  s.causes.halt || (s.queueCause && s.enables.queue) || (s.causes.overflow && s.enables.overflow) ||
    (s.causes.done && s.enables.done) || (s.causes.overrun && s.enables.overrun) ||
    (s.causes.misuse && s.enables.misuse)

/-- The pin follows the causes and the enables (R173). -/
def State.followIrq (s : State) : State := s.setIrqAsserted s.irqLevel

/-- `t`, reached from `s`, with a change of the status word or the producer noted (R169). -/
def State.noteFrom (s t : State) : State :=
  if t.statusWord = s.statusWord ∧ t.producer = s.producer then t else t.setStatusChanged true

/-- The latched causes replaced (R170). -/
def State.changeCauses (s : State) (c : Causes) : State := s.noteFrom (s.setCauses c)

/-- OVERFLOW set (R170). -/
def State.setOverflow (s : State) : State := s.changeCauses { s.causes with overflow := true }

/-- DONE set (R170). -/
def State.setDone (s : State) : State := s.changeCauses { s.causes with done := true }

/-- OVERRUN set (R170). -/
def State.setOverrun (s : State) : State := s.changeCauses { s.causes with overrun := true }

/-- MISUSE set (R170). -/
def State.setMisuse (s : State) : State := s.changeCauses { s.causes with misuse := true }

/-- HALT set (R170). -/
def State.setHalt (s : State) : State := s.changeCauses { s.causes with halt := true }

/-- HALT cleared, at the successful end of START (R163). -/
def State.clearHalt (s : State) : State := s.changeCauses { s.causes with halt := false }

/-- The acknowledge fields of a word (12.2): OVERFLOW, DONE, OVERRUN and MISUSE are cleared where their bit is 1;
the bits of QUEUE and HALT are ignored (R171). -/
def acknowledgedCauses (c : Causes) (w : Word) : Causes where
  overflow := c.overflow && !bitOf w 1
  done := c.done && !bitOf w 2
  overrun := c.overrun && !bitOf w 3
  misuse := c.misuse && !bitOf w 4
  halt := c.halt

/-- The enables of a word (12.2, R172); bit 5 is ignored. -/
def enablesOf (w : Word) : Enables where
  queue := bitOf w 0
  overflow := bitOf w 1
  done := bitOf w 2
  overrun := bitOf w 3
  misuse := bitOf w 4

/-- The command in progress replaced; command busy follows (R174). -/
def State.changeCommand (s : State) (c : Option Command) : State := s.noteFrom (s.setCommand c)

/-- The ring indices replaced; QUEUE follows (R133, R170). -/
def State.changeIndices (s : State) (producer consumer : Nat) : State :=
  s.noteFrom ((s.setProducer producer).setConsumer consumer)

end Sys2Proof.Machine
end

