-- ==== Sys2Proof/Machine/Ops.lean ====
section
/-! DEFINITION. The operations the commands share: queues and holds, the controller-originated queue, port
states, fault reports and the staging FIFO, windows and fetches, changes of the operating state, HALT entry,
STOP completion, and the end of an event. -/

namespace Sys2Proof.Machine

/-- The list with `f` applied to its first element that satisfies `p`. -/
def updateFirst {α : Type} (p : α → Bool) (f : α → α) : List α → List α
  | [] => []
  | a :: as => if p a then f a :: as else a :: updateFirst p f as

/-! ### Port queues and holds -/

/-- The entry is WAITING (R3). -/
def QEntry.isWaiting (e : QEntry) : Bool :=
  match e.phase with
  | .waiting => true
  | .admitted _ | .issued _ _ _ | .decided _ => false

/-- The entry is ADMITTED (R3). -/
def QEntry.isAdmitted (e : QEntry) : Bool :=
  match e.phase with
  | .admitted _ => true
  | .waiting | .issued _ _ _ | .decided _ => false

/-- The entry is ISSUED (R3). -/
def QEntry.isIssued (e : QEntry) : Bool :=
  match e.phase with
  | .issued _ _ _ => true
  | .waiting | .admitted _ | .decided _ => false

/-- The entry is ISSUED and was admitted at a place of its port's order. -/
def QEntry.isIssuedAt (place : Nat) (e : QEntry) : Bool :=
  match e.phase with
  | .issued a _ _ => decide (a.place = place)
  | .waiting | .admitted _ | .decided _ => false

/-- The entry is ADMITTED at a place of its port's order. -/
def QEntry.isAdmittedAt (place : Nat) (e : QEntry) : Bool :=
  match e.phase with
  | .admitted a => decide (a.place = place)
  | .waiting | .issued _ _ _ | .decided _ => false

/-- The entry becomes DECIDED with a response (R3). -/
def QEntry.decide (r : Response) (e : QEntry) : QEntry := { e with phase := .decided r }

/-- The oldest WAITING entry, the one under admission (R6). -/
def oldestWaiting (q : List QEntry) : Option QEntry := q.find? QEntry.isWaiting

/-- The oldest WAITING entry of a port becomes DECIDED, and its hold, if any, ends (R6). -/
def State.decideWaiting (s : State) (p : Port) (r : Response) : State :=
  s.setUnit p { s.unit p with queue := updateFirst QEntry.isWaiting (QEntry.decide r) (s.queueOf p), hold := none }

/-- Every entry of an engine port that satisfies `f` is refused (R18). -/
def State.refuseEntries (s : State) (e : Engine) (f : QEntry → Bool) (c : RefusalCode) : State :=
  s.setQueue (.engine e) ((s.queueOf (.engine e)).map fun x => if f x then x.decide (.refused c) else x)

/-- The same on all three engine ports (R18). -/
def State.refuseEngineEntries (s : State) (f : QEntry → Bool) (c : RefusalCode) : State :=
  ((s.refuseEntries .p1 f c).refuseEntries .p2 f c).refuseEntries .p3 f c

/-- The holds with a cause that satisfies `f` end, on every port (R6). -/
def State.endHolds (s : State) (f : Hold → Bool) : State :=
  s.setPorts (s.ports.map fun u => if u.hold.any f then { u with hold := none } else u)

/-- The oldest DECIDED entries of a queue with their responses, and what stands behind them (R4). -/
def splitDecided : List QEntry → List Response × List QEntry
  | [] => ([], [])
  | e :: q =>
    match e.phase with
    | .decided r => (r :: (splitDecided q).1, (splitDecided q).2)
    | .waiting | .admitted _ | .issued _ _ _ => ([], e :: q)

/-- A Port Unit gives the responses that are due, in order, and then accepts the request on its link if the queue
has room (R4, R2). -/
def PortUnit.answer (u : PortUnit) : PortUnit :=
  let d := splitDecided u.queue
  let u' := { u with queue := d.2, given := u.given ++ d.1 }
  match u.link with
  | some r =>
    if d.2.length < Config.queueDepth then { u' with queue := d.2 ++ [⟨r, .waiting⟩], link := none } else u'
  | none => u'

/-- Every Port Unit gives the responses that are due (R4). -/
def State.answerLinks (s : State) : State := s.setPorts (s.ports.map PortUnit.answer)

/-! ### The controller-originated queue -/

/-- A request raised at the tail of the controller-originated queue (R107). -/
def State.raiseCtl (s : State) (k : CtlKind) (addr : Word) (beats : Nat) (data : List Beat) : State :=
  s.setCtl (s.ctl ++ [⟨k, addr, beats, data, false⟩])

/-- A word of the control block (R155). -/
def State.blockAddr (s : State) (offset : Nat) : Word := addBytes (anchorOf s.anc) offset

/-- A configuration read raised (R15). -/
def State.raiseRead (s : State) (k : CtlKind) (offset beats : Nat) : State :=
  s.raiseCtl k (s.blockAddr offset) beats []

/-- The request is a status update. -/
def CtlRequest.isStatus (r : CtlRequest) : Bool := decide (r.kind = .statusUpdate)

/-- A status update waits on the controller-originated queue, not yet granted (R169). -/
def State.statusWaiting (s : State) : Bool := s.ctl.any CtlRequest.isStatus

/-- A waiting status update is withdrawn, and one is owed at the end of the event (R169). -/
def State.withdrawStatus (s : State) : State :=
  if s.statusWaiting then (s.setCtl (s.ctl.filter fun r => !r.isStatus)).setStatusChanged true else s

/-- A result write raised (R158); a status update waiting ungranted is withdrawn (R169). -/
def State.raiseResult (s : State) (code : BitVec 8) (o : CommandOutcome) (detail : Nat) : State :=
  s.withdrawStatus.raiseCtl .resultWrite (s.blockAddr 0x04) 1 (fullBeats [resultWord code o detail])

/-- The hold belongs to a command in progress (R6). -/
def Hold.ofCommand : Hold → Bool
  | .reloadMap | .configurePort | .configureLapsed => true
  | .loading | .window _ | .bufferSpace => false

/-- A final result: it ends the command in progress, if there is one, with the holds of that command, and sets
DONE (R158, R6). -/
def State.finalResult (s : State) (code : BitVec 8) (o : CommandOutcome) (detail : Nat) : State :=
  (((s.raiseResult code o detail).changeCommand none).setDone).endHolds Hold.ofCommand

/-- At the end of an event, a status update is raised behind every other request where a field changed, the
reporting flag is set and none waits already (R169, R107). Its contents are taken at its grant. -/
def State.raiseStatus (s : State) : State :=
  let t := s.setStatusChanged false
  if s.statusChanged && s.reporting && !s.statusWaiting then t.raiseCtl .statusUpdate (s.blockAddr 0x08) 2 [] else t

/-! ### Port states, settings and the operating state -/

/-- What a change of the port state leaves of the port's hold: it ends, and that it was one for CONFIGURE_PORT is kept
for the entry's fresh admission (R144, R148). -/
def Hold.lapse : Hold → Option Hold
  | .configurePort | .configureLapsed => some .configureLapsed
  | .loading | .reloadMap | .window _ | .bufferSpace => none

/-- An engine port's state changed to `st`; a change ends the hold of the port (R144, R6). -/
def State.changePortState (s : State) (e : Engine) (st : PortState) : State :=
  if (s.eng e).state = st then s
  else (s.noteFrom (s.setEng e { s.eng e with state := st })).setHold (.engine e)
    ((s.holdOf (.engine e)).bind Hold.lapse)

/-- The operating state changed to `st`; a change ends every hold (R160, R6). -/
def State.changeOp (s : State) (st : OpState) : State :=
  if s.opState = st then s else (s.noteFrom (s.setOpState st)).endHolds fun _ => true

/-- An engine port's storm counter replaced (R150). -/
def State.setStorm (s : State) (e : Engine) (c : BitVec 8) : State := s.setEng e { s.eng e with storm := c }

/-- A count of 8 bits incremented, staying at 255 (R129, R150). -/
def saturatingInc (c : BitVec 8) : BitVec 8 := if c = 255 then c else c + 1

/-- The storm counter of a port incremented (R150). -/
def State.countStorm (s : State) (e : Engine) : State := s.setStorm e (saturatingInc (s.eng e).storm)

/-- The control zone's parts in force: none before the first successful START (R78). -/
def State.zone (s : State) : List ByteRange :=
  match s.table, s.ring with
  | some t, some r => [controlBlockRange s.anc, t.range, r.range]
  | _, _ => []

/-- A byte lies in the control zone in force (R78). -/
def State.inZone (s : State) (a : Word) : Bool := s.zone.any fun z => z.holds a

/-! ### The fault ring -/

/-- The unconsumed records, counted modulo RING_SIZE (R133). -/
def unconsumed (size producer consumer : Nat) : Nat := (producer + size - consumer) % size

/-- The ring is full: RING_SIZE - 1 records are unconsumed (R133). -/
def State.ringFull (s : State) : Bool :=
  match s.ring with
  | some r => decide (unconsumed r.size s.producer s.consumer = r.size - 1)
  | none => true

/-- A ring write is in flight for the head (R128). -/
def State.writingHead (s : State) : Bool := s.staged.any Staged.writing

/-- Faults are recorded in ACTIVE and STOPPING (R125, R134). -/
def OpState.records : OpState → Bool
  | .active | .stopping => true
  | .boot | .loading | .halted => false

/-- The ring write of the head raised, where the conditions hold (R134): its contents are fixed and the head
becomes WRITING. -/
def State.raiseRingWrite (s : State) : State :=
  match s.staged, s.ring with
  | h :: rest, some r =>
    if s.opState.records && !s.writingHead && !s.ringFull then
      (s.raiseCtl .recordWrite (addBytes r.base (16 * s.producer)) 4 (fullBeats (recordWords h.record))).setStaged
        ({ h with writing := true } :: rest)
    else s
  | _, _ => s

/-- Two records agree in the fields used for merging (R129). -/
def FaultRecord.mergesWith (a b : FaultRecord) : Bool :=
  decide (a.kind = b.kind) && decide (a.port = b.port) && decide (a.window = b.window) && decide (a.access = b.access)

/-- The staging FIFO with a new record merged into its newest record, if the newest is PENDING and matches
(R129). -/
def mergeNewest (r : FaultRecord) : List Staged → Option (List Staged)
  | [] => none
  | [n] =>
    if !n.writing && n.record.mergesWith r then
      some [{ n with record := { n.record with repeats := saturatingInc n.record.repeats } }]
    else none
  | n :: m :: rest => (mergeNewest r (m :: rest)).map fun l => n :: l

/-- A record to be staged is merged, appended, or dropped with OVERFLOW (R129, R130). -/
def State.stageRecord (s : State) (r : FaultRecord) : State :=
  match mergeNewest r s.staged with
  | some l => s.setStaged l
  | none =>
    if s.staged.length < Config.stagingDepth then s.setStaged (s.staged ++ [⟨r, false⟩]) else s.setOverflow

/-- What becomes of a report's record in each operating state (R125); an appended record may let the head's ring
write be raised in the same event (R130). -/
def State.takeRecord (s : State) (r : FaultRecord) : State :=
  match s.opState with
  | .active | .stopping => (s.stageRecord r).raiseRingWrite
  | .loading | .halted => s.setOverflow
  | .boot => s

/-- The error mode BLOCK applied to a port that takes a fault report (R126). -/
def State.applyErrorMode (s : State) (e : Engine) : State :=
  if (s.eng e).settings.block then
    match (s.eng e).state with
    | .opened | .quiet => s.changePortState e .blocked
    | .blocked | .disabled => s
  else s

/-- The STORM record of a triggering fault (R124). -/
def stormRecord (r : FaultRecord) : FaultRecord :=
  { r with kind := .storm, window := none, selector := none, physical := none, repeats := 1 }

/-- The Storm Limiter counts a fault report (R150) and moves the port from OPEN to QUIET with a STORM report when
the counter reaches H (R151, R124). -/
def State.countFault (s : State) (e : Engine) (r : FaultRecord) : State :=
  let t := s.countStorm e
  let u := t.eng e
  if u.state = .opened ∧ u.settings.high ≠ 0#8 ∧ u.settings.high.toNat ≤ u.storm.toNat then
    (t.changePortState e .quiet).takeRecord (stormRecord r)
  else t

/-- The Fault Unit takes a fault report other than STORM as one event: the record, then on an engine port the
error mode and the storm count (R125, R126, R150). -/
def State.report (s : State) (r : FaultRecord) : State :=
  match r.port with
  | .p0 => s.takeRecord r
  | .engine e => ((s.takeRecord r).applyErrorMode e).countFault e r

/-- A record formed from a report (R122, R123). A record of P0 has no window and no selector, and its physical
address is its logical address. -/
def State.recordOf (s : State) (k : FaultKind) (p : Port) (access : Access) (beats : Nat) (logical : Word)
    (window : Option Index8) (selector : Option Selector) (physical : Option Word) : FaultRecord :=
  match p with
  | .p0 => ⟨k, p, none, access, beats, 1, logical, some logical, none, s.now⟩
  | .engine _ => ⟨k, p, window, access, beats, 1, logical, physical, selector, s.now⟩

/-- A fault found at admission or at a refetch: the oldest WAITING entry is refused with it and the fault is
reported (R14, R68). -/
def State.refuseFault (s : State) (p : Port) (req : Request) (k : FaultKind) (window : Option Index8)
    (selector : Option Selector) (physical : Option Word) : State :=
  (s.decideWaiting p (.refused (.fault k))).report
    (s.recordOf k p req.kind req.beats req.addr window selector physical)

/-! ### Windows and fetches -/

/-- The selector a window holds (R34, R59). -/
def WindowState.selector? : WindowState → Option Selector
  | .empty => none
  | .fetching _ k _ => some k
  | .valid k _ => some k
  | .stale k _ => some k

/-- One mark on a window (R59). -/
def Window.mark (v : Window) : Window :=
  match v.state with
  | .valid k d => { v with state := .stale k d }
  | .fetching p k _ => { v with state := .fetching p k true }
  | .stale _ _ | .empty => v

/-- Every window that satisfies `f` is marked, on all three engine ports (R59, R70). -/
def State.markWindows (s : State) (f : Window → Bool) : State :=
  s.setEngines (s.engines.map fun u => { u with windows := u.windows.map fun v => if f v then v.mark else v })

/-- One mark for selector `k` on every window that holds it (R59). -/
def State.markSelector (s : State) (k : Nat) : State :=
  s.markWindows fun v => v.state.selector?.any fun j => decide (j.toNat = k)

/-- A descriptor fetch raised: an item CURRENT on the fetch list and a four-beat read of the descriptor under the
geometry in force (R22, R37, R61, R64). With no geometry in force no selector names a descriptor (R21). -/
def State.raiseFetch (s : State) (e : Engine) (w : Index8) (k : Selector) (p : Purpose) : State :=
  match s.table with
  | some t =>
    (s.setFetches (s.fetches ++ [⟨e, w, k, p, true⟩])).raiseCtl .fetch (addBytes t.base (16 * k.toNat)) 4 []
  | none => s

/-- The CURRENT fetch of a window becomes CANCELLED (R62). -/
def State.cancelFetch (s : State) (e : Engine) (w : Index8) : State :=
  s.setFetches (s.fetches.map fun f => if f.engine = e ∧ f.window = w then { f with current := false } else f)

/-- The hold of the request held on a window ends (R6). -/
def State.endWindowHold (s : State) (e : Engine) (w : Index8) : State :=
  if s.holdOf (.engine e) = some (.window w) then s.setHold (.engine e) none else s

/-- A window emptied: EMPTY, rotation 0, its fetch cancelled, its hold ended (R42, R43, R62). -/
def State.emptyWindow (s : State) (e : Engine) (w : Index8) : State :=
  ((s.setWindow e w Window.reset).cancelFetch e w).endWindowHold e w

/-- The hold is on a window. -/
def Hold.onWindow : Hold → Bool
  | .window _ => true
  | .loading | .reloadMap | .configurePort | .configureLapsed | .bufferSpace => false

/-- All 24 windows emptied and their fetches cancelled (R36, R62). -/
def State.emptyAllWindows (s : State) : State :=
  ((s.setEngines (s.engines.map fun u => { u with windows := eightOf Window.reset })).setFetches
    (s.fetches.map fun f => { f with current := false })).endHolds Hold.onWindow

/-! ### The Posted Write Buffer -/

/-- The entries the buffer holds. -/
def State.postedEntries (s : State) : List Posted := s.buffer.toList.filterMap id

/-- The number of free entries (R90). -/
def State.freeEntries (s : State) : Nat := (s.buffer.toList.filter Option.isNone).length

/-- The buffer holds no entry (R101). -/
def State.bufferEmpty (s : State) : Bool := s.buffer.toList.all Option.isNone

/-- The lowest-numbered free entry (R90). -/
def State.lowestFree (s : State) : Option Index8 := allIndexes.find? fun i => (s.buffer.get i).isNone

/-- A piece placed in the lowest-numbered free entry (R90). -/
def State.fillEntry (s : State) (v : Posted) : State :=
  match s.lowestFree with
  | some i => s.setBuffer (s.buffer.set i (some v))
  | none => s

/-- A drain mark is set in the buffer (R98, R99). -/
def State.watching (s : State) : Bool := s.postedEntries.any Posted.mark

/-- The drain marks of all entries set or cleared (R98, R102). -/
def State.setMarks (s : State) (b : Bool) : State :=
  s.setBuffer (s.buffer.map fun o => o.map fun v => { v with mark := b })

/-! ### Lock Control -/

/-- The port's admitted LOCK_READ is marked to open no lock (R115). -/
def State.unmarkLockRead (s : State) (p : Port) : State :=
  s.setQueue p (updateFirst
    (fun e => decide (e.req.kind = .lockRead) && (match e.phase with
      | .admitted a => a.opensLock
      | .waiting | .issued _ _ _ | .decided _ => false))
    (fun e => match e.phase with
      | .admitted a => { e with phase := .admitted { a with opensLock := false } }
      | .waiting | .issued _ _ _ | .decided _ => e) (s.queueOf p))

/-- The kinds that close a locked sequence (7.4). -/
def closesLock : Access → Bool
  | .unlockWrite | .unlock => true
  | .read | .write | .lockRead => false

/-- The port's admitted closing request is refused LOCK_LOST (R119, R121). -/
def State.refuseClosing (s : State) (p : Port) : State :=
  s.setQueue p (updateFirst (fun e => e.isAdmitted && closesLock e.req.kind)
    (QEntry.decide (.refused .lockLost)) (s.queueOf p))

/-- What HALT entry leaves of an engine port's sequence record: FREE, its LOST flag kept (R121, R110). -/
def Sequence.freed : Sequence → Sequence
  | .free lost => .free lost
  | .opening _ | .holding _ | .closing _ => .free false

/-- HALT entry ends any lock without a report, sets the LOST flag of its owner and settles the sequence records
(R121). -/
def State.haltLocks (s : State) : State :=
  let t := s.setSeqs ⟨s.seqs.p0, s.seqs.engines.map Sequence.freed⟩
  match s.lock with
  | none => t
  | some l =>
    let t := t.setLock none
    match l.owner, s.seqOf l.owner with
    | .engine e, _ => t.setSeq (.engine e) (.free true)
    | .p0, .closing _ => (t.refuseClosing .p0).setSeq .p0 (.free false)
    | .p0, .free _ | .p0, .opening _ | .p0, .holding _ => t.setSeq .p0 (.free true)

/-! ### HALT entry and STOP completion -/

/-- The request is a write by which the controller reports: a record write, a status update or a result write
(R166). -/
def CtlKind.reports : CtlKind → Bool
  | .recordWrite | .statusUpdate | .resultWrite => true
  | .startRead | .reloadRead | .portRead | .fetch => false

/-- The request is a configuration read (R15). -/
def CtlKind.isConfigRead : CtlKind → Bool
  | .startRead | .reloadRead | .portRead => true
  | .fetch | .recordWrite | .statusUpdate | .resultWrite => false

/-- The staging FIFO discarded, with OVERFLOW if it held a record (R141, R142). -/
def State.discardStaged (s : State) : State :=
  if s.staged.isEmpty then s else (s.setStaged []).setOverflow

/-- What HALT entry does to the requests already raised: a ring write still on the controller-originated queue is
withdrawn (R142), the reads of the command in progress are cancelled (R166), and the answers of the controller
writes already issued have no effect any more (R137, R166). -/
def State.haltRequests (s : State) : State :=
  (s.setCtl ((s.ctl.filter fun r => decide (r.kind ≠ .recordWrite)).map fun r =>
    if r.kind.isConfigRead then { r with cancelled := true } else r)).setIssued
    (s.issued.map fun i => match i.owner with
      | .ctl k => if k.reports || k.isConfigRead then { i with void := true } else i
      | .piece _ _ | .posted _ => i)

/-- HALT entry (R166), with the parts of R18, R36, R62, R88, R102, R121, R142 and R152. -/
def State.haltEntry (s : State) : State :=
  let s := (s.discardStaged.haltRequests).emptyAllWindows
  let s := (s.changeOp .halted).endHolds fun _ => true
  let s := s.refuseEngineEntries (fun e => e.isWaiting || e.isAdmitted) .halted
  let s := (s.haltLocks.setMarks false).setNextExpiry none
  ((s.changeCommand none).setHalt).setStatusChanged true

/-- No engine queue entry is ADMITTED or ISSUED (R165). -/
def State.enginesIdle (s : State) : Bool :=
  s.ports.engines.toList.all fun u => u.queue.all fun e => !e.isAdmitted && !e.isIssued

/-- Every engine port DISABLED (R146). -/
def State.disableEngines (s : State) : State :=
  ((s.changePortState .p1 .disabled).changePortState .p2 .disabled).changePortState .p3 .disabled

/-- The completion event of STOP (R165). No engine entry is WAITING when BOOT is entered (R18): one accepted in
STOPPING and not yet admitted is refused NOT_ACTIVE, as its admission would refuse it (R8, DEDUCED,
notes/assumptions/30), and the responses that fall due are given (R4). -/
def State.completeStop (s : State) : State :=
  ((((s.refuseEngineEntries QEntry.isWaiting .notActive).emptyAllWindows.disableEngines.setNextExpiry none).changeOp
    .boot).finalResult 2 .ok 0).answerLinks

/-- STOP completes at the first moment at which its conditions hold, with the discard of staged records when the
ring is full (R165, R141). The test is made as STOP is taken and at the end of every event. -/
def State.tryStop (s : State) : State :=
  if s.opState = .stopping ∧ s.enginesIdle ∧ s.bufferEmpty then
    if s.staged.isEmpty then s.completeStop
    else if !s.writingHead && s.ringFull then s.discardStaged.completeStop
    else s
  else s

/-! ### Events -/

/-- What every event ends with: the responses that are due are given (R4), STOP completes if it can (R165), IRQ_N
follows (R173), and a status update is raised behind every other request (R169, R107). -/
def State.settle (s : State) : State := s.answerLinks.tryStop.followIrq.raiseStatus

/-- One event of the part. While RESET_N is asserted every block is held at its reset values, and no event acts
(R177). -/
def State.event (s : State) (f : State → State) : Host.Outcome State Fault Refusal :=
  if s.inReset then .next s else .next (f s).settle

/-- The next free choice, and the state with it used. -/
def State.freeChoice (s : State) : Bool × State :=
  (Config.freeBit s.freeCounter, s.setFreeCounter (s.freeCounter + 1))

/-- The number of words an OK answer carries (R15). -/
def Issued.dataLength (i : Issued) : Nat := if i.write then 0 else i.beats

/-- The answer fits the request (R15). -/
def answerFits (a : Answer) (i : Issued) : Bool :=
  match a with
  | .ok d => decide (d.length = i.dataLength)
  | .error => true

/-- Memory answers the oldest issued request, which leaves the issued list (R15, R106). An answer with no issued
request of the kind the row names, or of a wrong length, is what R15 says memory never gives: a fault. -/
def State.answerEvent (s : State) (wanted : Owner → Bool) (a : Answer) (f : Issued → State → State) :
    Host.Outcome State Fault Refusal :=
  if s.inReset then .next s
  else
    match s.issued with
    | [] => .fault .answerWithoutRequest
    | i :: rest =>
      if wanted i.owner then
        if answerFits a i then .next (f i (s.setIssued rest)).settle else .fault .answerDataLength
      else .fault .answerWithoutRequest

/-- The answer to a write, as an answer that carries no words. -/
def answerOfAck : Ack → Answer
  | .ok => .ok []
  | .error => .error

/-- The owner is a controller request of one kind. -/
def Owner.isCtl (k : CtlKind) (o : Owner) : Bool := decide (o = .ctl k)

end Sys2Proof.Machine
end

