-- ==== Sys2Proof/Machine/Locks.lean ====
section
/-! DEFINITION. Lock Control: the sequence check of step 6 (7.5), and the beginning and end of the lock (7.6). -/

namespace Sys2Proof.Machine

/-- What step 6 says of a request: it passes, or it is refused LOCK_LOST or FAULT(LOCK_SEQUENCE) (R112 to R114). -/
inductive LockVerdict where
  | passed | lost | sequence
  deriving DecidableEq, Repr

/-- The outcome of step 6: the verdict, the port's sequence record after it, and the effects of a sequence that
ends (R115): from HOLDING the lock ends, from OPENING the admitted LOCK_READ is marked to open no lock. -/
structure LockStep where
  verdict  : LockVerdict
  record   : Sequence
  endsLock : Bool
  unmarks  : Bool
  deriving DecidableEq, Repr

/-- The sequence information a record holds (R110). -/
def Sequence.info : Sequence → Option SeqInfo
  | .free _ => none
  | .opening i | .holding i | .closing i => some i

/-- The pieces of a request touch the sequence word of a record (7.5). -/
def Sequence.touchedBy (q : Sequence) (ps : List Piece) : Bool :=
  q.info.any fun i => ps.any fun p => p.words.any fun a => decide (a = i.word)

/-- Step 6 in phase OPENING or HOLDING (R113): `after` is the record the port keeps when its phase is unchanged,
`closes` the record in CLOSING, and `ended` the outcome when the sequence ends. -/
def openStep (kind : Access) (touch : Bool) (after closes : Sequence) (ended : LockStep) : LockStep :=
  match kind with
  | .unlockWrite | .unlock => if touch then ⟨.passed, closes, false, false⟩ else ended
  | .lockRead => ended
  | .read | .write => if touch then ended else ⟨.passed, after, false, false⟩

/-- Step 6 of admission for a port's sequence record (R112, R113, R114, R115). -/
def lockStep (q : Sequence) (kind : Access) (touch : Bool) (info : SeqInfo) : LockStep :=
  match q with
  | .free lost =>
    match kind with
    | .unlockWrite | .unlock => ⟨if lost then .lost else .sequence, .free false, false, false⟩
    | .lockRead => ⟨.passed, .opening info, false, false⟩
    | .read | .write => ⟨.passed, .free false, false, false⟩
  | .opening i => openStep kind touch (.opening i) (.closing i) ⟨.sequence, .free false, false, true⟩
  | .holding i => openStep kind touch (.holding i) (.closing i) ⟨.sequence, .free false, true, false⟩
  | .closing i =>
    match kind with
    | .lockRead | .unlockWrite | .unlock => ⟨.sequence, .closing i, false, false⟩
    | .read | .write => ⟨.passed, .closing i, false, false⟩

/-- The effects of step 6 on Lock Control and on the port's admitted LOCK_READ (R112 to R115). -/
def State.applyLockStep (s : State) (p : Port) (l : LockStep) : State :=
  let s := s.setSeq p l.record
  let s := if l.endsLock then s.setLock none else s
  if l.unmarks then s.unmarkLockRead p else s

/-- The lock limit in force of a port (R110, R145). -/
def State.lockLimitOf (s : State) : Port → BitVec 8
  | .p0 => s.p0LockLimit
  | .engine e => (s.eng e).settings.lockLimit

/-- The lock begins at the grant of a LOCK_READ that opens a lock (R116). -/
def State.beginLock (s : State) (p : Port) : State :=
  match s.seqOf p with
  | .opening i => (s.setLock (some ⟨p, i.word, s.now, s.lockLimitOf p⟩)).setSeq p (.holding i)
  | .closing i => s.setLock (some ⟨p, i.word, s.now, s.lockLimitOf p⟩)
  | .free _ | .holding _ => s

/-- The lock ends normally at the grant of the closing request (R117). -/
def State.endLock (s : State) (p : Port) : State := (s.setLock none).setSeq p (.free false)

/-- The lock timer expires at the count that is the start time plus the lock limit (R118). -/
def State.lockDue (s : State) : Bool :=
  s.lock.any fun l => decide (s.now = l.start + l.limit.setWidth 16)

/-- The LOCK_BROKEN record of an expiry (R119). -/
def State.brokenRecord (s : State) (l : Lock) (i : SeqInfo) : FaultRecord :=
  s.recordOf .lockBroken l.owner .lockRead 1 i.logical (i.via.map Via.window) (i.via.map Via.selector) (some l.word)

/-- An expiry of the lock timer (R119): the lock ends and the owner's LOST flag is set; in CLOSING the admitted
closing request is refused LOCK_LOST, which clears it. The report is made in ACTIVE and STOPPING. -/
def State.breakLock (s : State) (l : Lock) : State :=
  let t := s.setLock none
  let broken (t : State) (i : SeqInfo) : State := if t.opState.records then t.report (t.brokenRecord l i) else t
  match s.seqOf l.owner with
  | .holding i => broken (t.setSeq l.owner (.free true)) i
  | .closing i => broken ((t.refuseClosing l.owner).setSeq l.owner (.free false)) i
  | .opening i => broken (t.setSeq l.owner (.free true)) i
  | .free _ => t.setSeq l.owner (.free true)

/-- The lock timer's expiry taken where it is due (R118, R119). -/
def State.takeLockExpiry (s : State) : State :=
  match s.lock with
  | some l => if s.lockDue then s.breakLock l else s
  | none => s

end Sys2Proof.Machine
end

