-- ==== Sys2Proof/Machine/Translation.lean ====
section
/-! DEFINITION. Steps 4 and 5 of admission: window selection, rights, limit and boundary checks, translation into
pieces (chapter 3), and the ZONE and HOLE checks with the attribute of the request (chapter 5). -/

namespace Sys2Proof.Machine

/-- What steps 1 to 5 of admission come to (R6, R7): the request goes on with its pieces and its attribute, or it
is refused, refused with a fault, held, or held with a refetch of its STALE window started. -/
inductive Verdict where
  | passed (first : Piece) (second : Option Piece) (via : Option Via) (posted : Bool)
  | refused (c : RefusalCode)
  | faulted (k : FaultKind) (window : Option Index8) (selector : Option Selector) (physical : Option Word)
  | held (h : Hold)
  | refetch (e : Engine) (w : Index8) (k : Selector)
  deriving DecidableEq, Repr

/-- The window an engine's logical address selects: bits 31..29 (R46). -/
def windowIndex (a : Word) : Index8 := windowOf (a.extractLsb' 29 3)

/-- The offset into the window: bits 28..0 (R46). -/
def windowOffset (a : Word) : Nat := (a.extractLsb' 0 29).toNat

/-- The rights check (R26, R48). -/
def Checked.grants (d : Checked) : Access → Bool
  | .read => d.read
  | .write => d.write
  | .lockRead | .unlockWrite | .unlock => d.read && d.write && d.lock

/-- The request's offsets contain bytes on both sides of a boundary. -/
def crosses (o n boundary : Nat) : Bool := decide (o < boundary) && decide (boundary < o + n)

/-- The boundary check of a ROTATING region: the offsets contain bytes of two parts (R50). -/
def Checked.splits (d : Checked) (o n : Nat) : Bool :=
  match d.kind with
  | .linear => false
  | .rotating head _ middle _ => crosses o n (head * 256) || crosses o n ((head + middle) * 256)

/-- The rights, limit and boundary checks in order; the first that fails (R48, R49, R50). -/
def Checked.fault (d : Checked) (kind : Access) (o beats : Nat) : Option FaultKind :=
  if d.grants kind = false then some .rights
  else if d.size * 256 ≤ o + 4 * beats - 1 then some .limit
  else if d.splits o (4 * beats) then some .split
  else none

/-- A piece at a distance from BASE. -/
def Checked.pieceAt (d : Checked) (distance beats : Nat) (data : List Beat) : Piece :=
  ⟨addBytes d.base distance, beats, data⟩

/-- Translation of a request that passed the checks into one or two pieces (R52, R53, R54). -/
def Checked.translate (d : Checked) (rotation : Nat) (o beats : Nat) (data : List Beat) : Piece × Option Piece :=
  match d.kind with
  | .linear => (d.pieceAt o beats data, none)
  | .rotating head _ middle _ =>
    if o < head * 256 ∨ (head + middle) * 256 ≤ o then (d.pieceAt o beats data, none)
    else
      let x := o - head * 256
      let wrap := (middle - rotation) * 256
      if rotation = 0 ∨ x + 4 * beats ≤ wrap ∨ wrap ≤ x then
        (d.pieceAt (head * 256 + (x + rotation * 256) % (middle * 256)) beats data, none)
      else
        let n := (wrap - x) / 4
        (d.pieceAt ((head + rotation) * 256 + x) n (data.take n),
          some (d.pieceAt (head * 256) (beats - n) (data.drop n)))

/-- A piece reaches a byte of the control zone (R80). -/
def State.reachesZone (s : State) (p : Piece) : Bool := p.bytes.any s.inZone

/-- A piece reaches a byte whose attribute is HOLE (R81). -/
def State.reachesHole (s : State) (p : Piece) : Bool := p.bytes.any fun a => decide (s.map.attrOf a = .hole)

/-- Every byte of a piece is POSTED (R82). -/
def State.allPosted (s : State) (p : Piece) : Bool := p.bytes.all fun a => decide (s.map.attrOf a = .posted)

/-- Step 5 for an engine request: ZONE, then HOLE, then the attribute (R80, R81, R82). -/
def State.classify (s : State) (kind : Access) (v : Via) (first : Piece) (second : Option Piece) : Verdict :=
  match (piecesOf first second).find? s.reachesZone with
  | some p => .faulted .zone (some v.window) (some v.selector) (some p.addr)
  | none =>
    match (piecesOf first second).find? s.reachesHole with
    | some p => .faulted .hole (some v.window) (some v.selector) (some p.addr)
    | none => .passed first second (some v) (!kind.isLocked && (piecesOf first second).all s.allPosted)

/-- Steps 4 and 5 for an engine request (R46 to R54, R80 to R82). -/
def State.windowVerdict (s : State) (e : Engine) (r : Request) : Verdict :=
  let w := windowIndex r.addr
  let o := windowOffset r.addr
  match (s.window e w).state with
  | .empty => .faulted .noWindow (some w) none none
  | .fetching _ _ _ => .held (.window w)
  | .stale k _ => .refetch e w k
  | .valid k d =>
    match d.fault r.kind o r.beats with
    | some f => .faulted f (some w) (some k) none
    | none =>
      let t := d.translate (s.window e w).rotation.toNat o r.beats r.data
      s.classify r.kind ⟨w, k⟩ t.1 t.2

/-- The single piece of a P0 request: the address on the link (R10, R11). -/
def supervisorPiece (r : Request) : Piece := ⟨r.addr, r.beats, r.data⟩

/-- Step 5 for a P0 request on the checked path: a HOLE byte outside the zone refuses it, and zone bytes count as
ORDERED (R11, R83). -/
def State.checkedSupervisor (s : State) (r : Request) : Verdict :=
  let bytes := (supervisorPiece r).bytes
  if bytes.any fun a => !s.inZone a && decide (s.map.attrOf a = .hole) then .faulted .hole none none (some r.addr)
  else .passed (supervisorPiece r) none none
    (!r.kind.isLocked && bytes.all fun a => !s.inZone a && decide (s.map.attrOf a = .posted))

end Sys2Proof.Machine
end

