-- ==== Sys2Proof/Machine/Admission.lean ====
section
/-! DEFINITION. The commands REQUEST_ACCEPT and ADMISSION (chapter 1). -/

namespace Sys2Proof.Machine

/-! ### Acceptance -/

/-- A request presented on a link (R2): it is accepted when the queue holds fewer than four entries, and otherwise
stands on the link. While a request already stands on the link, another is not accepted and has no effect
(notes/assumptions/8). -/
def State.present (s : State) (p : Port) (r : Request) : State :=
  let u := s.unit p
  match u.link with
  | some _ => s
  | none =>
    if u.queue.length < Config.queueDepth then s.setUnit p { u with queue := u.queue ++ [⟨r, .waiting⟩] }
    else s.setUnit p { u with link := some r }

/-- REQUEST_ACCEPT (R2). A request the link has no encoding for is refused (R1). -/
def execRequestAccept (p : Port) (r : Request) (s : State) : Host.Outcome State Fault Refusal :=
  if r.wf then s.event fun t => t.present p r else .refused .noLinkEncoding

/-! ### Admission -/

/-- RELOAD_MAP is in progress (R85). -/
def State.reloading (s : State) : Bool :=
  match s.command with
  | some (.reloadMap _) => true
  | some (.start _ _) | some .stop | some (.loadWindow _ _) | some (.configurePort _) | some .drain | none => false

/-- CONFIGURE_PORT is in progress for an engine port (R168). -/
def State.configuring (s : State) (e : Engine) : Bool := decide (s.command = some (.configurePort (.engine e)))

/-- Steps 1 to 5 for an engine port (R7, R8, R9). -/
def State.engineVerdict (s : State) (e : Engine) (r : Request) : Verdict :=
  match s.opState with
  | .boot | .stopping => .refused .notActive
  | .loading => .held .loading
  | .halted => .refused .halted
  | .active =>
    match (s.eng e).state with
    | .disabled => .refused .disabled
    | .blocked => .refused .blocked
    | .quiet => .refused .quiet
    | .opened =>
      if s.reloading then .held .reloadMap
      else if s.configuring e then .held .configurePort
      else s.windowVerdict e r

/-- Steps 1 to 5 for P0: the unchecked path in BOOT, LOADING and HALTED, the checked path in ACTIVE and STOPPING
(R8, R10, R11). -/
def State.supervisorVerdict (s : State) (r : Request) : Verdict :=
  match s.opState with
  | .boot | .loading | .halted => .passed (supervisorPiece r) none none false
  | .active | .stopping => if s.reloading then .held .reloadMap else s.checkedSupervisor r

/-- Steps 1 to 5 of admission (R7). -/
def State.verdict (s : State) (p : Port) (r : Request) : Verdict :=
  match p with
  | .p0 => s.supervisorVerdict r
  | .engine e => s.engineVerdict e r

/-- A refusal without a fault; a QUIET refusal is counted by the Storm Limiter (R9, R150). -/
def State.refuse (s : State) (p : Port) (c : RefusalCode) : State :=
  let t := s.decideWaiting p (.refused c)
  match p, c with
  | .engine e, .quiet => t.countStorm e
  | .engine _, _ | .p0, _ => t

/-- A request held on a STALE window: the window becomes FETCHING for a REFETCH, its rotation kept, and a fetch is
raised (R64). -/
def State.startRefetch (s : State) (e : Engine) (w : Index8) (k : Selector) : State :=
  ((s.setWindow e w { s.window e w with state := .fetching .refetch k false }).raiseFetch e w k .refetch).setHold
    (.engine e) (some (.window w))

/-- A POSTED WRITE occupies one buffer entry for each piece and its queue entry becomes DECIDED with DONE (R13,
R90). -/
def State.post (s : State) (p : Port) (r : Request) (first : Piece) (second : Option Piece) (via : Option Via) :
    State :=
  let place := (s.unit p).nextPlace
  let t := s.fillEntry ⟨p, place, r.addr, first, via, false, false⟩
  let t := match second with
    | some q => t.fillEntry ⟨p, place + 1, addBytes r.addr (4 * first.beats), q, via, false, false⟩
    | none => t
  let t := t.decideWaiting p (.done [])
  t.setUnit p { t.unit p with nextPlace := place + (piecesOf first second).length }

/-- The oldest WAITING entry becomes ADMITTED with what admission fixed in it (R13, R56). -/
def State.makeCandidate (s : State) (p : Port) (r : Request) (first : Piece) (second : Option Piece)
    (via : Option Via) : State :=
  let u := s.unit p
  let a : Admitted := ⟨u.nextPlace, first, second, via, decide (r.kind = .lockRead)⟩
  s.setUnit p { u with
    queue := updateFirst QEntry.isWaiting (fun e => { e with phase := .admitted a }) u.queue
    nextPlace := u.nextPlace + (piecesOf first second).length }

/-- Step 7: routing (R13). -/
def State.route (s : State) (p : Port) (r : Request) (first : Piece) (second : Option Piece) (via : Option Via)
    (posted : Bool) : State :=
  if r.kind = .write ∧ posted then
    if (piecesOf first second).length ≤ s.freeEntries then s.post p r first second via
    else s.setHold p (some .bufferSpace)
  else s.makeCandidate p r first second via

/-- Steps 6 and 7 (R112 to R115, R13). What step 6 does to the LOST flag stands when step 7 then holds the write
(DEDUCED, notes/assumptions/14). -/
def State.lockAndRoute (s : State) (p : Port) (r : Request) (first : Piece) (second : Option Piece)
    (via : Option Via) (posted : Bool) : State :=
  let q := s.seqOf p
  let l := lockStep q r.kind (q.touchedBy (piecesOf first second)) ⟨first.addr, r.addr, via⟩
  let t := s.applyLockStep p l
  match l.verdict with
  | .passed => t.route p r first second via posted
  | .lost => t.decideWaiting p (.refused .lockLost)
  | .sequence => t.refuseFault p r .lockSequence (via.map Via.window) (via.map Via.selector) none

/-- Admission of one request, from its first step to its outcome, as one event (R6, R7). -/
def State.admitRequest (s : State) (p : Port) (r : Request) : State :=
  match s.verdict p r with
  | .passed first second via posted => s.lockAndRoute p r first second via posted
  | .refused c => s.refuse p c
  | .faulted k w sel phys => s.refuseFault p r k w sel phys
  | .held h => s.setHold p (some h)
  | .refetch e w k => s.startRefetch e w k

/-- The rules give two outcomes to the fresh admission of a request whose hold for CONFIGURE_PORT a change of the port
state ended: with the command in progress and the port BLOCKED or QUIET, R148 holds it again at step 3, and R9, R127
and R151 refuse it at step 2 (notes/assumptions/31). -/
def State.lapseDisputed (s : State) : Port → Bool
  | .p0 => false
  | .engine e => decide (s.opState = .active) && s.configuring e &&
    (decide ((s.eng e).state = .blocked) || decide ((s.eng e).state = .quiet))

/-- The fresh admission of a request whose hold for CONFIGURE_PORT a change of the port state ended. Where the rules
give two outcomes, which of them comes about is a free choice (R148, R6, notes/assumptions/31). -/
def State.admitLapsed (s : State) (p : Port) (r : Request) : State :=
  let t := s.setHold p none
  if s.lapseDisputed p then
    let c := t.freeChoice
    if c.1 then c.2.setHold p (some .configurePort) else c.2.admitRequest p r
  else t.admitRequest p r

/-- Admission of a port's oldest WAITING entry. While the hold of the entry stands, and when no entry is WAITING,
there is nothing to admit (R6, notes/assumptions/6 and 12). -/
def State.admitOldest (s : State) (p : Port) : State :=
  match oldestWaiting (s.queueOf p) with
  | none => s
  | some x =>
    match s.holdOf p with
    | none => s.admitRequest p x.req
    | some .configureLapsed => s.admitLapsed p x.req
    | some .loading | some .reloadMap | some .configurePort | some (.window _) | some .bufferSpace => s

/-- ADMISSION (R7). -/
def execAdmission (p : Port) (s : State) : Host.Outcome State Fault Refusal := s.event fun t => t.admitOldest p

end Sys2Proof.Machine
end

