-- ==== Sys2Proof/Machine/Arbiter.lean ====
section
/-! DEFINITION. The command GRANT: candidates, grant order, and the effect of a grant (chapter 7). -/

namespace Sys2Proof.Machine

/-- What a port presents to the arbiter: a queue entry, or a buffer entry by its number less one (R104). -/
inductive Candidate where
  | entry (e : QEntry)
  | buffered (i : Index8) (v : Posted)
  deriving DecidableEq, Repr

/-- The unissued item of a queue entry with its place: an ADMITTED entry, or the second piece of an entry whose
first piece has been issued (R104, R92). -/
def QEntry.unissued (e : QEntry) : Option (Nat × Candidate) :=
  match e.phase with
  | .admitted a => some (a.place, .entry e)
  | .issued a granted _ => if !granted && a.second.isSome then some (a.place + 1, .entry e) else none
  | .waiting | .decided _ => none

/-- The WAITING buffer entry of a port at an index, with its place (R92). -/
def State.waitingAt (s : State) (p : Port) (i : Index8) : Option (Nat × Candidate) :=
  match s.buffer.get i with
  | some v => if v.port = p ∧ v.issued = false then some (v.place, .buffered i v) else none
  | none => none

/-- The unissued items of a port with their places in its admission order (R92). -/
def State.unissuedItems (s : State) (p : Port) : List (Nat × Candidate) :=
  (s.queueOf p).filterMap QEntry.unissued ++ allIndexes.filterMap (s.waitingAt p)

/-- The item with the earliest place. -/
def earliest : List (Nat × Candidate) → Option (Nat × Candidate)
  | [] => none
  | x :: l =>
    match earliest l with
    | some y => if y.1 < x.1 then some y else some x
    | none => some x

/-- The port's candidate: the earliest item in its admission order that is not yet issued (R92, R104). -/
def State.candidate (s : State) (p : Port) : Option Candidate := (earliest (s.unissuedItems p)).map Prod.snd

/-- The order in which the ports are looked at after the round-robin pointer (R105). -/
def roundRobinOrder : Port → List Port
  | .p0 => [.engine .p1, .engine .p2, .engine .p3, .p0]
  | .engine .p1 => [.engine .p2, .engine .p3, .p0, .engine .p1]
  | .engine .p2 => [.engine .p3, .p0, .engine .p1, .engine .p2]
  | .engine .p3 => [.p0, .engine .p1, .engine .p2, .engine .p3]

/-- A port candidate is eligible when no lock is held or its port owns the lock (R105, R111). -/
def State.eligible (s : State) (p : Port) : Bool := s.lock.all fun l => decide (l.owner = p)

/-- The first port in order with an eligible candidate (R105). -/
def State.nextPort (s : State) : Option (Port × Candidate) :=
  (roundRobinOrder s.roundRobin).findSome? fun p =>
    if s.eligible p then (s.candidate p).map fun c => (p, c) else none

/-- A memory request issued at the tail of the issued list (R106). -/
def State.issue (s : State) (i : Issued) : State := s.setIssued (s.issued ++ [i])

/-- A piece of a queue entry issued (R108). -/
def State.issuePiece (s : State) (p : Port) (kind : Access) (place : Nat) (q : Piece) : State :=
  s.issue ⟨kind.isWrite, q.addr, q.beats, q.data, .piece p place, false⟩

/-- The ADMITTED entry at a place takes a new phase. -/
def State.advanceAdmitted (s : State) (p : Port) (place : Nat) (ph : Phase) : State :=
  s.setQueue p (updateFirst (QEntry.isAdmittedAt place) (fun e => { e with phase := ph }) (s.queueOf p))

/-- The ISSUED entry at a place takes a new phase. -/
def State.advanceIssued (s : State) (p : Port) (place : Nat) (ph : Phase) : State :=
  s.setQueue p (updateFirst (QEntry.isIssuedAt place) (fun e => { e with phase := ph }) (s.queueOf p))

/-- The first grant of an ADMITTED entry, by its kind (R108, R116, R117). -/
def State.grantAdmitted (s : State) (p : Port) (r : Request) (a : Admitted) : State :=
  match r.kind with
  | .read | .write => (s.issuePiece p r.kind a.place a.first).advanceAdmitted p a.place (.issued a false none)
  | .lockRead =>
    let t := (s.issuePiece p r.kind a.place a.first).advanceAdmitted p a.place (.issued a false none)
    if a.opensLock then t.beginLock p else t
  | .unlockWrite =>
    ((s.endLock p).issuePiece p r.kind a.place a.first).advanceAdmitted p a.place (.issued a false none)
  | .unlock => (s.endLock p).advanceAdmitted p a.place (.decided (.done []))

/-- The grant of a queue entry's item: its first piece, or its second (R108, R109). -/
def State.grantEntry (s : State) (p : Port) (e : QEntry) : State :=
  match e.phase with
  | .admitted a => s.grantAdmitted p e.req a
  | .issued a _ ans =>
    match a.second with
    | some q => (s.issuePiece p e.req.kind a.place q).advanceIssued p a.place (.issued a true ans)
    | none => s
  | .waiting | .decided _ => s

/-- The grant of a buffer entry (R94, R108). -/
def State.grantBuffered (s : State) (i : Index8) (v : Posted) : State :=
  (s.setBuffer (s.buffer.set i (some { v with issued := true }))).issue
    ⟨true, v.piece.addr, v.piece.beats, v.piece.data, .posted i, false⟩

/-- The grant of a port's candidate; it sets the round-robin pointer (R105). -/
def State.grantPort (s : State) (p : Port) (c : Candidate) : State :=
  match c with
  | .entry e => (s.setRoundRobin p).grantEntry p e
  | .buffered i v => (s.setRoundRobin p).grantBuffered i v

/-- The data of a controller-originated request at its grant: a status update takes the values that stand then
(R107, R169). -/
def State.ctlData (s : State) (r : CtlRequest) : List Beat :=
  if r.isStatus then fullBeats [s.statusWord, producerWord s.producer] else r.data

/-- The grant of the oldest controller-originated request (R108). An ERROR answer to a controller write issued in
HALTED will have no effect (R167), and so will the answer to a cancelled configuration read (R166). -/
def State.grantCtl (s : State) (r : CtlRequest) : State :=
  s.issue ⟨r.kind.reports, r.addr, r.beats, s.ctlData r, .ctl r.kind,
    r.cancelled || (r.kind.reports && decide (s.opState = .halted))⟩

/-- One grant of the arbiter (R105, R106). -/
def State.arbitrate (s : State) : State :=
  if s.issued.length < Config.issueLimit then
    match s.ctl with
    | r :: rest => (s.setCtl rest).grantCtl r
    | [] =>
      match s.nextPort with
      | some (p, c) => s.grantPort p c
      | none => s
  else s

/-- GRANT (R105). With eight requests issued, or no eligible candidate, the arbiter grants nothing. -/
def execGrant (s : State) : Host.Outcome State Fault Refusal := s.event State.arbitrate

end Sys2Proof.Machine
end

