-- ==== Sys2Proof/Machine/Commands.lean ====
section
/-! DEFINITION. The commands written into COMMAND: the order of R157, the eleven commands as they are taken, and
the refusals (chapters 3, 4, 5, 6, 9 and 10). Each row's command stands for an answered P0 write of COMMAND as the
Command Unit sees it (notes/assumptions/4 and 5). -/

namespace Sys2Proof.Machine

/-! ### Taking a command -/

/-- A command taken and ended at once with its final result (R158). -/
def State.complete (s : State) (c : CommandWrite) (o : CommandOutcome) : State :=
  s.finalResult (commandCode c) o 0

/-- A command that takes time becomes the command in progress, and its result IN_PROGRESS is raised (R158). -/
def State.begin (s : State) (c : CommandWrite) (k : Command) : State :=
  (s.changeCommand (some k)).raiseResult (commandCode c) .inProgress 0

/-- START taken in BOOT or HALTED (R161). -/
def State.takeStart (s : State) : State :=
  (((s.begin .start (.start s.opState none)).changeOp .loading).raiseRead .startRead 0x20 16).raiseRead
    .startRead 0x60 12

/-- STOP taken in ACTIVE (R165): refused LOCK_HELD while a port owns the lock; otherwise STOPPING is entered, every
WAITING engine entry is refused NOT_ACTIVE (R18), and STOP completes at once where its
conditions hold already, before another live word of the same write is acted on (R165, R156). -/
def State.takeStop (s : State) : State :=
  if s.lock.isSome then s.complete .stop .lockHeld
  else (((s.begin .stop .stop).changeOp .stopping).refuseEngineEntries QEntry.isWaiting .notActive).tryStop

/-- A selector names a descriptor under the geometry in force (R20, R21). -/
def State.namesDescriptor (s : State) (arg : Arg) : Bool := s.table.any fun t => decide (arg.toNat < t.count)

/-- The window set FETCHING for a LOAD, its rotation kept, a fetch it waited for cancelled, and the fetch of the
LOAD raised (R38). -/
def State.loadInto (s : State) (e : Engine) (w : Index8) (k : Selector) : State :=
  ((s.cancelFetch e w).setWindow e w { s.window e w with state := .fetching .load k false }).raiseFetch e w k .load

/-- LOAD_WINDOW taken in ACTIVE (R37, R38). -/
def State.takeLoadWindow (s : State) (p : Port) (w : Index8) (arg : Arg) : State :=
  match p with
  | .p0 => s.complete (.loadWindow p w arg) .badArgument
  | .engine e =>
    if s.namesDescriptor arg then
      (s.begin (.loadWindow p w arg) (.loadWindow e w)).loadInto e w (arg.setWidth 8)
    else s.complete (.loadWindow p w arg) .badArgument

/-- CLEAR_WINDOW taken in ACTIVE (R42, R43). -/
def State.takeClearWindow (s : State) (p : Port) (w : Index8) : State :=
  match p with
  | .p0 => s.complete (.clearWindow p w) .badArgument
  | .engine e => (s.emptyWindow e w).complete (.clearWindow p w) .ok

/-- The checked descriptor of a VALID or STALE window (R44). -/
def WindowState.checked? : WindowState → Option Checked
  | .valid _ d => some d
  | .stale _ d => some d
  | .empty | .fetching _ _ _ => none

/-- M of the ROTATING descriptor a window holds, VALID or STALE (R44). -/
def Window.middle? (v : Window) : Option Nat :=
  match v.state.checked? with
  | some d =>
    match d.kind with
    | .rotating _ _ m _ => some m
    | .linear => none
  | none => none

/-- ROTATE taken in ACTIVE (R44). -/
def State.takeRotate (s : State) (p : Port) (w : Index8) (arg : Arg) : State :=
  match p with
  | .p0 => s.complete (.rotate p w arg) .badArgument
  | .engine e =>
    match (s.window e w).middle? with
    | none => s.complete (.rotate p w arg) .notRotating
    | some m =>
      if arg.toNat < m then
        (s.setWindow e w { s.window e w with rotation := arg }).complete (.rotate p w arg) .ok
      else s.complete (.rotate p w arg) .badArgument

/-- INVALIDATE taken in ACTIVE (R69). -/
def State.takeInvalidate (s : State) (arg : Arg) : State :=
  if s.namesDescriptor arg then (s.markSelector arg.toNat).complete (.invalidate arg) .ok
  else s.complete (.invalidate arg) .badArgument

/-- INVALIDATE_ALL taken in ACTIVE (R70). -/
def State.takeInvalidateAll (s : State) : State := (s.markWindows fun _ => true).complete .invalidateAll .ok

/-- RELEASE_PORT on an engine port: a port that is not DISABLED becomes OPEN with its storm counter 0 (R149). -/
def State.release (s : State) (e : Engine) : State :=
  if (s.eng e).state = .disabled then s else (s.changePortState e .opened).setStorm e 0

/-- RELEASE_PORT taken in ACTIVE (R149). -/
def State.takeReleasePort (s : State) (p : Port) : State :=
  match p with
  | .p0 => s.complete (.releasePort p) .badArgument
  | .engine e => (s.release e).complete (.releasePort p) .ok

/-- CONFIGURE_PORT taken in ACTIVE (R168). -/
def State.takeConfigurePort (s : State) (p : Port) : State :=
  (s.begin (.configurePort p) (.configurePort p)).raiseRead .portRead (0x34 + 4 * (portCode p).toNat) 1

/-- RELOAD_MAP taken in ACTIVE (R85). -/
def State.takeReloadMap (s : State) : State :=
  ((s.begin .reloadMap (.reloadMap none)).raiseRead .reloadRead 0x30 1).raiseRead .reloadRead 0x50 16

/-- DRAIN completes: its final result OK (R99). -/
def State.completeDrain (s : State) : State := s.complete .drain .ok

/-- DRAIN taken in ACTIVE (R98): the watched set is marked, and an empty one completes the command at once. -/
def State.takeDrain (s : State) : State :=
  let t := (s.setMarks true).begin .drain .drain
  if t.watching then t else t.completeDrain

/-- A command of R158 taken only in ACTIVE, and refused WRONG_STATE in any other operating state (R157 case 5). -/
def State.inActive (s : State) (c : CommandWrite) (f : State → State) : State :=
  if s.opState = .active then f s else s.complete c .wrongState

/-- A command that is taken (R157 cases 3 to 6). -/
def State.takeCommand (s : State) (c : CommandWrite) : State :=
  match c with
  | .ignored => s
  | .malformed => s.complete c .malformed
  | .unknown _ => s.complete c .unknownCommand
  | .start => if s.opState = .boot ∨ s.opState = .halted then s.takeStart else s.complete c .wrongState
  | .stop => s.inActive c State.takeStop
  | .loadWindow p w arg => s.inActive c fun t => t.takeLoadWindow p w arg
  | .clearWindow p w => s.inActive c fun t => t.takeClearWindow p w
  | .rotate p w arg => s.inActive c fun t => t.takeRotate p w arg
  | .invalidate arg => s.inActive c fun t => t.takeInvalidate arg
  | .invalidateAll => s.inActive c State.takeInvalidateAll
  | .releasePort p => s.inActive c fun t => t.takeReleasePort p
  | .configurePort p => s.inActive c fun t => t.takeConfigurePort p
  | .reloadMap => s.inActive c State.takeReloadMap
  | .drain => s.inActive c State.takeDrain

/-- A COMMAND write as the Command Unit deals with it, in the order of R157: a covered 00h is ignored, a write
while a command is in progress is an overrun, and any other is taken; the first command taken after reset sets
the reporting flag (R169). -/
def State.commandWritten (s : State) (c : CommandWrite) : State :=
  if c = .ignored then s
  else if s.command.isSome then s.setOverrun
  else (s.setReporting true).takeCommand c

/-- The COMMAND word of an answered P0 write; with no lane written it is not acted on (R156). -/
def State.commandWord (s : State) (lanes : Lanes) (w : Word) : State :=
  if lanes = 0 then s else s.commandWritten (commandOf lanes w)

/-! ### The rows of the table -/

/-- START (R161). -/
def execStart (s : State) : Host.Outcome State Fault Refusal := s.event fun t => t.commandWritten .start

/-- STOP (R165). -/
def execStop (s : State) : Host.Outcome State Fault Refusal := s.event fun t => t.commandWritten .stop

/-- LOAD_WINDOW (R37). -/
def execLoadWindow (p : Port) (w : Index8) (arg : Arg) (s : State) : Host.Outcome State Fault Refusal :=
  s.event fun t => t.commandWritten (.loadWindow p w arg)

/-- CLEAR_WINDOW (R42). -/
def execClearWindow (p : Port) (w : Index8) (s : State) : Host.Outcome State Fault Refusal :=
  s.event fun t => t.commandWritten (.clearWindow p w)

/-- ROTATE (R44). -/
def execRotate (p : Port) (w : Index8) (arg : Arg) (s : State) : Host.Outcome State Fault Refusal :=
  s.event fun t => t.commandWritten (.rotate p w arg)

/-- INVALIDATE (R69). -/
def execInvalidate (arg : Arg) (s : State) : Host.Outcome State Fault Refusal :=
  s.event fun t => t.commandWritten (.invalidate arg)

/-- INVALIDATE_ALL (R70). -/
def execInvalidateAll (s : State) : Host.Outcome State Fault Refusal :=
  s.event fun t => t.commandWritten .invalidateAll

/-- RELEASE_PORT (R149). -/
def execReleasePort (p : Port) (s : State) : Host.Outcome State Fault Refusal :=
  s.event fun t => t.commandWritten (.releasePort p)

/-- CONFIGURE_PORT (R168). -/
def execConfigurePort (p : Port) (s : State) : Host.Outcome State Fault Refusal :=
  s.event fun t => t.commandWritten (.configurePort p)

/-- RELOAD_MAP (R85). -/
def execReloadMap (s : State) : Host.Outcome State Fault Refusal := s.event fun t => t.commandWritten .reloadMap

/-- DRAIN (R98). -/
def execDrain (s : State) : Host.Outcome State Fault Refusal := s.event fun t => t.commandWritten .drain

/-- UNKNOWN_COMMAND (R157 case 4): a covered COMMAND write of the word. -/
def execUnknownCommand (w : Word) (s : State) : Host.Outcome State Fault Refusal :=
  s.event fun t => t.commandWord 15 w

/-- MALFORMED (R157 case 3): a COMMAND write that does not cover the word. -/
def execMalformed (lanes : Lanes) (w : Word) (s : State) : Host.Outcome State Fault Refusal :=
  s.event fun t => t.commandWord lanes w

/-- IGNORED_COMMAND (R157 case 1): a covered COMMAND write of code 00h. -/
def execIgnoredCommand (w : Word) (s : State) : Host.Outcome State Fault Refusal :=
  s.event fun t => t.commandWord 15 w

/-- COMMAND_OVERRUN (R157 case 2): a COMMAND write while a command is in progress. -/
def execCommandOverrun (lanes : Lanes) (w : Word) (s : State) : Host.Outcome State Fault Refusal :=
  s.event fun t => t.commandWord lanes w

end Sys2Proof.Machine
end

