-- ==== Sys2Proof/Machine/LiveWords.lean ====
section
/-! DEFINITION. The other live words CONSUMER, ENABLE and ACKNOWLEDGE, and the hand-over of an answered P0 write to
the Command Unit and the Table Snoop (R17, R58, R156). -/

namespace Sys2Proof.Machine

/-- A consumer value is one the Fault Unit takes (R138). -/
def State.takesConsumer (s : State) (v : Nat) : Bool :=
  s.ring.any fun r => decide (v < r.size) &&
    decide (unconsumed r.size v s.consumer ≤ unconsumed r.size s.producer s.consumer)

/-- A covered CONSUMER write in ACTIVE or STOPPING (R138). -/
def State.consume (s : State) (v : Nat) : State :=
  if s.takesConsumer v then (s.changeIndices s.producer v).raiseRingWrite else s.setMisuse

/-- CONSUMER, bits 9..0: the index field (12.2). -/
def indexField (w : Word) : Nat := (w.extractLsb' 0 10).toNat

/-- The CONSUMER word of an answered P0 write (R138, R139, R156). -/
def State.consumerWord (s : State) (lanes : Lanes) (w : Word) : State :=
  if lanes = 0 then s
  else if s.opState.records then (if lanes = 15 then s.consume (indexField w) else s.setMisuse)
  else s

/-- The ENABLE word of an answered P0 write (R156, R172). -/
def State.enableWord (s : State) (lanes : Lanes) (w : Word) : State :=
  if lanes = 0 then s else if lanes = 15 then s.setEnables (enablesOf w) else s.setMisuse

/-- The ACKNOWLEDGE word of an answered P0 write (R156, R171). -/
def State.acknowledgeWord (s : State) (lanes : Lanes) (w : Word) : State :=
  if lanes = 0 then s
  else if lanes = 15 then s.changeCauses (acknowledgedCauses s.causes w)
  else s.setMisuse

/-! ### The hand-over -/

/-- The beat of a write at a word address. -/
def beatAt (ws : List (Word × Beat)) (a : Word) : Option Beat :=
  (ws.find? fun x => decide (x.1 = a)).map Prod.snd

/-- The live word at an offset acted on, where the write holds it (R156). -/
def State.actLive (s : State) (ws : List (Word × Beat)) (offset : Nat) (f : State → Lanes → Word → State) : State :=
  match beatAt ws (s.blockAddr offset) with
  | some b => f s b.lanes b.data
  | none => s

/-- The live words of a write acted on in ascending address order (R156). -/
def State.actLiveWords (s : State) (ws : List (Word × Beat)) : State :=
  (((s.actLive ws 0x00 State.commandWord).actLive ws 0x10 State.consumerWord).actLive ws 0x14
    State.enableWord).actLive ws 0x18 State.acknowledgeWord

/-- The offsets of the live words (R155). -/
def liveOffsets : List Nat := [0x00, 0x10, 0x14, 0x18]

/-- The write acts on a live word: one has a byte lane written (R156). -/
def State.writesLive (s : State) (ws : List (Word × Beat)) : Bool :=
  liveOffsets.any fun o => (beatAt ws (s.blockAddr o)).any fun b => decide (b.lanes ≠ 0)

/-- The selectors a write touched under the geometry in force (R58, R60). -/
def State.touched (s : State) (a : Word) (beats : Nat) : List Nat :=
  match s.table with
  | some t => touchedSelectors t a beats
  | none => []

/-- The Table Snoop: one mark for each touched selector (R58, R59). -/
def State.snoop (s : State) (ks : List Nat) : State := ks.foldl State.markSelector s

/-- An answered P0 write handed to the Command Unit and the Table Snoop (R17). Where both act, which acts first
is a free choice (notes/assumptions/10). -/
def State.handOver (s : State) (a : Word) (data : List Beat) : State :=
  let ws := addressed a data
  let ks := s.touched a data.length
  if s.writesLive ws && !ks.isEmpty then
    let c := s.freeChoice
    if c.1 then (c.2.actLiveWords ws).snoop ks else (c.2.snoop ks).actLiveWords ws
  else (s.actLiveWords ws).snoop ks

/-! ### The rows of the table -/

/-- CONSUMER (R138, R139). -/
def execConsumer (lanes : Lanes) (w : Word) (s : State) : Host.Outcome State Fault Refusal :=
  s.event fun t => t.consumerWord lanes w

/-- ENABLE (R172). -/
def execEnable (lanes : Lanes) (w : Word) (s : State) : Host.Outcome State Fault Refusal :=
  s.event fun t => t.enableWord lanes w

/-- ACKNOWLEDGE (R171). -/
def execAcknowledge (lanes : Lanes) (w : Word) (s : State) : Host.Outcome State Fault Refusal :=
  s.event fun t => t.acknowledgeWord lanes w

end Sys2Proof.Machine
end

