-- ==== Sys2Proof/Machine/Answers.lean ====
section
/-! DEFINITION. The nine commands in which memory answers the oldest issued request (R15, R106). -/

namespace Sys2Proof.Machine

/-! ### Pieces of queue entries -/

/-- The issued request is a piece of a queue entry. -/
def Owner.isPiece : Owner → Bool
  | .piece _ _ => true
  | .posted _ | .ctl _ => false

/-- A MEMORY_ERROR: the response and the fault report, which names the failing piece (R16, R123). -/
def State.failEntry (s : State) (p : Port) (r : Request) (a : Admitted) (phys : Word) : State :=
  (s.advanceIssued p a.place (.decided .memoryError)).report
    (s.recordOf .memoryError p r.kind r.beats r.addr (a.via.map Via.window) (a.via.map Via.selector) (some phys))

/-- An entry whose one piece is answered (R16). A P0 write answered OK is handed to the Command Unit and the Table
Snoop before its DONE is decided (R17). -/
def State.completeOne (s : State) (p : Port) (r : Request) (a : Admitted) (ans : Answer) : State :=
  match ans with
  | .ok d =>
    let t := if p = .p0 ∧ r.kind.isWrite then s.handOver a.first.addr a.first.data else s
    t.advanceIssued p a.place (.decided (.done d))
  | .error => s.failEntry p r a a.first.addr

/-- An entry whose second piece is answered after its first (R16): one DONE with the data in beat order, or one
MEMORY_ERROR that names the first piece answered ERROR. -/
def State.completeTwo (s : State) (p : Port) (r : Request) (a : Admitted) (second : Piece) (x y : Answer) : State :=
  match x, y with
  | .ok d, .ok e => s.advanceIssued p a.place (.decided (.done (d ++ e)))
  | .error, _ => s.failEntry p r a a.first.addr
  | .ok _, .error => s.failEntry p r a second.addr

/-- The answer to a piece of an ISSUED entry (R16). -/
def State.answerEntry (s : State) (p : Port) (e : QEntry) (ans : Answer) : State :=
  match e.phase with
  | .issued a granted first =>
    match a.second, first with
    | none, _ => s.completeOne p e.req a ans
    | some _, none => s.advanceIssued p a.place (.issued a granted (some ans))
    | some q, some x => s.completeTwo p e.req a q x ans
  | .waiting | .admitted _ | .decided _ => s

/-- The answer to a piece, handed to the Port Unit (R106, R16). -/
def State.answerPiece (s : State) (i : Issued) (ans : Answer) : State :=
  match i.owner with
  | .piece p place =>
    match (s.queueOf p).find? (QEntry.isIssuedAt place) with
    | some e => s.answerEntry p e ans
    | none => s
  | .posted _ | .ctl _ => s

/-- PIECE_ANSWER (R16). -/
def execPieceAnswer (a : Answer) (s : State) : Host.Outcome State Fault Refusal :=
  s.answerEvent Owner.isPiece a fun i t => t.answerPiece i a

/-! ### Posted entries -/

/-- The issued request is a posted entry. -/
def Owner.isPosted : Owner → Bool
  | .posted _ => true
  | .piece _ _ | .ctl _ => false

/-- The DEFERRED_WRITE record of an entry (R96). -/
def State.deferredRecord (s : State) (v : Posted) : FaultRecord :=
  s.recordOf .deferredWrite v.port .write v.piece.beats v.logical (v.via.map Via.window) (v.via.map Via.selector)
    (some v.piece.addr)

/-- An entry becomes free, which ends every hold for buffer space (R95, R90). -/
def State.freeEntry (s : State) (i : Index8) : State :=
  (s.setBuffer (s.buffer.set i none)).endHolds fun h => decide (h = .bufferSpace)

/-- DRAIN completes when no watched entry is left (R99). -/
def State.tryDrain (s : State) : State :=
  if s.command = some .drain ∧ s.watching = false then s.completeDrain else s

/-- The answer to a posted entry (R95, R96): the entry is freed, an ERROR is reported before a DRAIN completes
(R99). -/
def State.answerPosted (s : State) (i : Issued) (ack : Ack) : State :=
  match i.owner with
  | .posted n =>
    match s.buffer.get n with
    | some v =>
      let t := s.freeEntry n
      match ack with
      | .ok => t.tryDrain
      | .error => (t.report (t.deferredRecord v)).tryDrain
    | none => s
  | .piece _ _ | .ctl _ => s

/-- POSTED_ENTRY_ANSWER (R95, R96). -/
def execPostedEntryAnswer (a : Ack) (s : State) : Host.Outcome State Fault Refusal :=
  s.answerEvent Owner.isPosted (answerOfAck a) fun i t => t.answerPosted i a

/-! ### Descriptor fetches -/

/-- The rotation after a completion that makes a window VALID (R39, R65): of a LOAD, INITIAL_ROTATION; of a
refetch, the rotation kept while it is below the new M; 0 for a LINEAR descriptor. -/
def rotationAfter (p : Purpose) (before : Arg) (d : Checked) : Arg :=
  match d.kind with
  | .linear => 0
  | .rotating _ _ m initial =>
    match p with
    | .load => initial
    | .refetch => if before.toNat < m then before else initial

/-- A fetch completes well: the window becomes VALID and the hold on it ends (R39, R65). -/
def State.validate (s : State) (e : Engine) (w : Index8) (p : Purpose) (k : Selector) (d : Checked) : State :=
  (s.setWindow e w ⟨.valid k d, rotationAfter p (s.window e w).rotation d⟩).endWindowHold e w

/-- A refetch that fails empties the window and refuses the request held on it with the fault (R66, R67, R68). -/
def State.failRefetch (s : State) (e : Engine) (w : Index8) (k : Selector) (f : FaultKind) : State :=
  let t := s.setWindow e w Window.reset
  if s.holdOf (.engine e) = some (.window w) then
    match oldestWaiting (s.queueOf (.engine e)) with
    | some x => t.refuseFault (.engine e) x.req f (some w) (some k) none
    | none => t.endWindowHold e w
  else t

/-- A LOAD that fails empties the window and writes its outcome (R39). -/
def State.failLoad (s : State) (e : Engine) (w : Index8) (o : CommandOutcome) (detail : Nat) : State :=
  ((s.setWindow e w Window.reset).endWindowHold e w).finalResult 3 o detail

/-- The completion of the fetch of a LOAD (R39). -/
def State.completeLoad (s : State) (e : Engine) (w : Index8) (k : Selector) (ans : Answer) : State :=
  match ans with
  | .error => s.failLoad e w .readError 0
  | .ok ws =>
    let d := descriptorOfWords ws
    if d.detail e = 0 then (s.validate e w .load k d.checked).finalResult 3 .ok 0
    else s.failLoad e w .descriptorRefused (d.detail e)

/-- The completion of a refetch (R65, R66, R67). -/
def State.completeRefetch (s : State) (e : Engine) (w : Index8) (k : Selector) (ans : Answer) : State :=
  match ans with
  | .error => s.failRefetch e w k .tableError
  | .ok ws =>
    let d := descriptorOfWords ws
    if d.detail e = 0 then s.validate e w .refetch k d.checked else s.failRefetch e w k .revoked

/-- A completion with the refetch flag set is discarded: the flag is cleared and a new fetch of the same selector
and purpose is raised (R63). -/
def State.refetchAgain (s : State) (e : Engine) (w : Index8) (p : Purpose) (k : Selector) : State :=
  (s.setWindow e w { s.window e w with state := .fetching p k false }).raiseFetch e w k p

/-- The completion of a window's CURRENT fetch (R61, R63). -/
def State.fetchCompletion (s : State) (e : Engine) (w : Index8) (ans : Answer) : State :=
  match (s.window e w).state with
  | .fetching p k true => s.refetchAgain e w p k
  | .fetching .load k false => s.completeLoad e w k ans
  | .fetching .refetch k false => s.completeRefetch e w k ans
  | .empty | .valid _ _ | .stale _ _ => s

/-- The answer to a descriptor fetch is matched to the oldest item of the fetch list (R61); that of a CANCELLED
item is discarded (R62). -/
def State.answerFetch (s : State) (ans : Answer) : State :=
  match s.fetches with
  | [] => s
  | f :: rest =>
    let t := s.setFetches rest
    if f.current then t.fetchCompletion f.engine f.window ans else t

/-- DESCRIPTOR_FETCH_ANSWER (R61). -/
def execDescriptorFetchAnswer (a : Answer) (s : State) : Host.Outcome State Fault Refusal :=
  s.answerEvent (Owner.isCtl .fetch) a fun _ t => t.answerFetch a

/-! ### START -/

/-- An engine port takes its settings and a new state from START, with its storm counter 0 (R145, R147). -/
def State.startPort (s : State) (e : Engine) (w : Word) : State :=
  let v := settingsOf w
  (s.setEng e { s.eng e with settings := v, storm := 0 }).changePortState e
    (if v.enable then .opened else .disabled)

/-- The success of START: the configuration comes into force in one event (R163). -/
def State.startSuccess (s : State) (c : Configuration) : State :=
  let s := (s.setRing (some c.ring)).setTable (some c.table)
  let s := s.setMap ⟨rangesOf c.rangeWords, defaultPostedOf c.global⟩
  let s := (s.emptyAllWindows).setP0LockLimit (settingsOf c.portWords.p0).lockLimit
  let s := ((s.startPort .p1 c.portWords.engines.p1).startPort .p2 c.portWords.engines.p2).startPort .p3
    c.portWords.engines.p3
  let s := s.changeIndices 0 0
  let s := (s.setInterval (intervalOf c.global)).setNextExpiry (some (s.now + intervalOf c.global))
  (s.clearHalt.changeOp .active).finalResult 1 .ok 0

/-- The failure of START: the operating state returns to the one START was taken in, everything else is kept, and
the engine requests held in LOADING are refused (R164, R18). On return to HALTED every WAITING engine entry is
refused, as for any entry into HALTED (DEDUCED, notes/assumptions/16). -/
def State.startFailure (s : State) (prior : OpState) (o : CommandOutcome) (detail : Nat) : State :=
  let refuseHeld (s : State) (e : Engine) : State :=
    if s.holdOf (.engine e) = some .loading then s.decideWaiting (.engine e) (.refused .notActive) else s
  let s := if prior = .halted then s.refuseEngineEntries QEntry.isWaiting .halted
    else ((refuseHeld s .p1) |> (refuseHeld · .p2)) |> (refuseHeld · .p3)
  (s.changeOp prior).finalResult 1 o detail

/-- START ends when both reads have been answered (R161 to R164). -/
def State.endStart (s : State) (prior : OpState) (x y : Answer) : State :=
  match x, y with
  | .ok d, .ok e =>
    let c := configurationOf (d ++ e)
    let n := c.detail s.anc
    if n = 0 then s.startSuccess c else s.startFailure prior .configInvalid n
  | .error, _ => s.startFailure prior .readError 0
  | .ok _, .error => s.startFailure prior .readError 0

/-- The answer to one of START's two reads; the answer to a cancelled read is discarded (R161, R166). -/
def State.answerStartRead (s : State) (i : Issued) (ans : Answer) : State :=
  if i.void then s
  else
    match s.command with
    | some (.start prior none) => s.setCommand (some (.start prior (some ans)))
    | some (.start prior (some x)) => s.endStart prior x ans
    | some .stop | some (.loadWindow _ _) | some (.configurePort _) | some (.reloadMap _) | some .drain | none => s

/-- START_READ_ANSWER (R162). -/
def execStartReadAnswer (a : Answer) (s : State) : Host.Outcome State Fault Refusal :=
  s.answerEvent (Owner.isCtl .startRead) a fun i t => t.answerStartRead i a

/-! ### RELOAD_MAP -/

/-- The end of RELOAD_MAP, whatever its outcome: its final result, and the hold of every port ends, whatever its cause,
so that each held request is admitted afresh under the map then in force (R87). -/
def State.finishReload (s : State) (o : CommandOutcome) (detail : Nat) : State :=
  (s.finalResult 10 o detail).endHolds fun _ => true

/-- The outcome of RELOAD_MAP from the words of its two reads (R87). -/
def State.endReload (s : State) (x y : Answer) : State :=
  match x, y with
  | .ok d, .ok e =>
    let rs := rangesOf e
    if fourthInvalid rs then s.finishReload .configInvalid 7
    else if holeInvalid rs s.zone then s.finishReload .configInvalid 8
    else (s.setMap ⟨rs, defaultPostedOf (d.getD 0 0)⟩).finishReload .ok 0
  | .error, _ => s.finishReload .readError 0
  | .ok _, .error => s.finishReload .readError 0

/-- The answer to one of RELOAD_MAP's two reads; the answer to a cancelled read is discarded (R87, R88). -/
def State.answerReloadRead (s : State) (i : Issued) (ans : Answer) : State :=
  if i.void then s
  else
    match s.command with
    | some (.reloadMap none) => s.setCommand (some (.reloadMap (some ans)))
    | some (.reloadMap (some x)) => s.endReload x ans
    | some .stop | some (.loadWindow _ _) | some (.configurePort _) | some (.start _ _) | some .drain | none => s

/-- RELOAD_MAP_READ_ANSWER (R87). -/
def execReloadMapReadAnswer (a : Answer) (s : State) : Host.Outcome State Fault Refusal :=
  s.answerEvent (Owner.isCtl .reloadRead) a fun i t => t.answerReloadRead i a

/-! ### CONFIGURE_PORT -/

/-- The port state after a successful CONFIGURE_PORT (R148). -/
def configuredState (st : PortState) (enable : Bool) : PortState :=
  if enable then (match st with
    | .disabled => .opened
    | .opened => .opened
    | .blocked => .blocked
    | .quiet => .quiet)
  else .disabled

/-- The settings of a port brought into force by CONFIGURE_PORT (R148, R168). -/
def State.configure (s : State) (p : Port) (w : Word) : State :=
  match p with
  | .p0 => s.setP0LockLimit (settingsOf w).lockLimit
  | .engine e =>
    (s.setEng e { s.eng e with settings := settingsOf w }).changePortState e
      (configuredState (s.eng e).state (settingsOf w).enable)

/-- Check 9 is made on an engine port alone (R168). -/
def marksChecked (p : Port) (w : Word) : Bool :=
  match p with
  | .p0 => false
  | .engine _ => marksInvalid w

/-- The outcome of CONFIGURE_PORT (R168). -/
def State.endConfigure (s : State) (p : Port) (ans : Answer) : State :=
  match ans with
  | .error => s.finalResult 9 .readError 0
  | .ok ws =>
    let w := ws.getD 0 0
    if marksChecked p w then s.finalResult 9 .configInvalid 9
    else if limitInvalid w then s.finalResult 9 .configInvalid 10
    else (s.configure p w).finalResult 9 .ok 0

/-- The answer to CONFIGURE_PORT's read; that of a cancelled read is discarded (R168). -/
def State.answerPortRead (s : State) (i : Issued) (ans : Answer) : State :=
  if i.void then s
  else
    match s.command with
    | some (.configurePort p) => s.endConfigure p ans
    | some .stop | some (.loadWindow _ _) | some (.reloadMap _) | some (.start _ _) | some .drain | none => s

/-- CONFIGURE_PORT_READ_ANSWER (R168). -/
def execConfigurePortReadAnswer (a : Answer) (s : State) : Host.Outcome State Fault Refusal :=
  s.answerEvent (Owner.isCtl .portRead) a fun i t => t.answerPortRead i a

/-! ### Controller writes -/

/-- A ring write answered OK: the head record leaves the FIFO, the producer advances, and the next record's ring
write is raised where it can be (R135). -/
def State.advanceRing (s : State) : State :=
  match s.ring with
  | some r =>
    ((s.setStaged s.staged.tail).changeIndices ((s.producer + 1) % r.size) s.consumer).raiseRingWrite
  | none => s

/-- The answer to a ring write (R135, R136); that of an orphaned write is discarded (R137). -/
def State.answerRecord (s : State) (i : Issued) (ack : Ack) : State :=
  if i.void then s
  else
    match ack with
    | .ok => s.advanceRing
    | .error => s.haltEntry

/-- RING_WRITE_ANSWER (R135). -/
def execRingWriteAnswer (a : Ack) (s : State) : Host.Outcome State Fault Refusal :=
  s.answerEvent (Owner.isCtl .recordWrite) (answerOfAck a) fun i t => t.answerRecord i a

/-- The answer to a status update or a result write: an ERROR enters HALTED, unless the write was issued in HALTED
or before the most recent HALT entry (R166, R167). -/
def State.answerReport (s : State) (i : Issued) (ack : Ack) : State :=
  match ack with
  | .ok => s
  | .error => if i.void then s else s.haltEntry

/-- STATUS_UPDATE_ANSWER (R169). -/
def execStatusUpdateAnswer (a : Ack) (s : State) : Host.Outcome State Fault Refusal :=
  s.answerEvent (Owner.isCtl .statusUpdate) (answerOfAck a) fun i t => t.answerReport i a

/-- RESULT_WRITE_ANSWER (R166). -/
def execResultWriteAnswer (a : Ack) (s : State) : Host.Outcome State Fault Refusal :=
  s.answerEvent (Owner.isCtl .resultWrite) (answerOfAck a) fun i t => t.answerReport i a

end Sys2Proof.Machine
end

