-- ==== Sys2Proof/Machine/Timers.lean ====
section
/-! DEFINITION. The commands RESET_ASSERT, RESET_RELEASE and TIMEBASE_TICK, and the two expiries (R19, R118, R119,
R152, R153, R177). -/

namespace Sys2Proof.Machine

/-! ### Reset -/

/-- Every block at its reset values with RESET_N asserted (R19, R177). The commands waiting in the model's queue
and the count of free values used are no state of the part and stay. -/
def State.asserted (s : State) : State :=
  ((State.reset.setInReset true).setFreeCounter s.freeCounter).setPending s.pending

/-- RESET_ASSERT (R19). -/
def execResetAssert (s : State) : Host.Outcome State Fault Refusal := .next s.asserted

/-- The release of RESET_N: the straps are sampled, the timebase starts at 0 and the state is BOOT (R177). -/
def State.released (s : State) (anc : BitVec 12) (div : BitVec 3) : State :=
  (((s.setInReset false).setAnc anc).setDiv div).setNow 0

/-- RESET_RELEASE (R177). With RESET_N not asserted there is no release: a change of a strap pin between resets
has no effect. -/
def execResetRelease (anc : BitVec 12) (div : BitVec 3) (s : State) : Host.Outcome State Fault Refusal :=
  .next (if s.inReset then s.released anc div else s)

/-- The CLK cycles per microsecond that a DIV value selects (R177). -/
def clkPerMicrosecond (div : BitVec 3) : Nat :=
  match div.toNat with
  | 0 => 25
  | 1 => 32
  | 2 => 40
  | 3 => 50
  | 4 => 64
  | 5 => 80
  | 6 => 100
  | _ => 125

/-! ### The interval timer -/

/-- The interval timer expires at its next expiry count (R152). -/
def State.intervalDue (s : State) : Bool := s.nextExpiry.any fun t => decide (s.now = t)

/-- The exit test of an engine port at an expiry (R153, step 1). -/
def State.exitTest (s : State) (e : Engine) : State :=
  let u := s.eng e
  if u.state = .quiet ∧ (u.storm.toNat ≤ u.settings.low.toNat ∨ u.settings.high = 0#8) then
    s.changePortState e .opened
  else s

/-- Both steps of an expiry on one engine port, in order (R153). -/
def State.expirePort (s : State) (e : Engine) : State := (s.exitTest e).setStorm e 0

/-- The interval timer's expiry taken where it is due; the next falls INTERVAL later (R152, R153). -/
def State.takeIntervalExpiry (s : State) : State :=
  if s.intervalDue then
    (((s.expirePort .p1).expirePort .p2).expirePort .p3).setNextExpiry (some (s.now + s.interval))
  else s

/-- INTERVAL_EXPIRY (R153). Where no expiry is due there is none to take (notes/assumptions/6). -/
def execIntervalExpiry (s : State) : Host.Outcome State Fault Refusal := s.event State.takeIntervalExpiry

/-- LOCK_TIMER_EXPIRY (R119). Where no expiry is due there is none to take (R118, notes/assumptions/6). -/
def execLockTimerExpiry (s : State) : Host.Outcome State Fault Refusal := s.event State.takeLockExpiry

/-! ### The timebase -/

/-- The expiries that are due at the standing count and have not been taken: they are taken before the next
increment, in a free order when both are due, each as an event of its own (notes/assumptions/9). -/
def State.takeDue (s : State) : State :=
  if s.lockDue && s.intervalDue then
    let c := s.freeChoice
    if c.1 then c.2.takeLockExpiry.settle.takeIntervalExpiry else c.2.takeIntervalExpiry.settle.takeLockExpiry
  else s.takeLockExpiry.takeIntervalExpiry

/-- The 16-bit count increments and wraps (R177). -/
def State.tick (s : State) : State := s.takeDue.setNow (s.now + 1)

/-- TIMEBASE_TICK (R177). -/
def execTimebaseTick (s : State) : Host.Outcome State Fault Refusal := s.event State.tick

end Sys2Proof.Machine
end

