-- ==== Sys2Proof/Machine/Dispatch.lean ====
section
/-! DEFINITION. One arm per command: each calls its meaning. -/

namespace Sys2Proof.Machine

def exec (i : Instr) (s : State) : Host.Outcome State Fault Refusal :=
  match i with
  | .resetAssert => Sys2Proof.Machine.execResetAssert s
  | .resetRelease anc div => Sys2Proof.Machine.execResetRelease anc div s
  | .timebaseTick => Sys2Proof.Machine.execTimebaseTick s
  | .requestAccept p r => Sys2Proof.Machine.execRequestAccept p r s
  | .admission p => Sys2Proof.Machine.execAdmission p s
  | .grant => Sys2Proof.Machine.execGrant s
  | .pieceAnswer a => Sys2Proof.Machine.execPieceAnswer a s
  | .postedEntryAnswer a => Sys2Proof.Machine.execPostedEntryAnswer a s
  | .descriptorFetchAnswer a => Sys2Proof.Machine.execDescriptorFetchAnswer a s
  | .startReadAnswer a => Sys2Proof.Machine.execStartReadAnswer a s
  | .reloadMapReadAnswer a => Sys2Proof.Machine.execReloadMapReadAnswer a s
  | .configurePortReadAnswer a => Sys2Proof.Machine.execConfigurePortReadAnswer a s
  | .ringWriteAnswer a => Sys2Proof.Machine.execRingWriteAnswer a s
  | .statusUpdateAnswer a => Sys2Proof.Machine.execStatusUpdateAnswer a s
  | .resultWriteAnswer a => Sys2Proof.Machine.execResultWriteAnswer a s
  | .lockTimerExpiry => Sys2Proof.Machine.execLockTimerExpiry s
  | .intervalExpiry => Sys2Proof.Machine.execIntervalExpiry s
  | .start => Sys2Proof.Machine.execStart s
  | .stop => Sys2Proof.Machine.execStop s
  | .loadWindow p w arg => Sys2Proof.Machine.execLoadWindow p w arg s
  | .clearWindow p w => Sys2Proof.Machine.execClearWindow p w s
  | .rotate p w arg => Sys2Proof.Machine.execRotate p w arg s
  | .invalidate arg => Sys2Proof.Machine.execInvalidate arg s
  | .invalidateAll => Sys2Proof.Machine.execInvalidateAll s
  | .releasePort p => Sys2Proof.Machine.execReleasePort p s
  | .configurePort p => Sys2Proof.Machine.execConfigurePort p s
  | .reloadMap => Sys2Proof.Machine.execReloadMap s
  | .drain => Sys2Proof.Machine.execDrain s
  | .unknownCommand w => Sys2Proof.Machine.execUnknownCommand w s
  | .malformed lanes w => Sys2Proof.Machine.execMalformed lanes w s
  | .ignoredCommand w => Sys2Proof.Machine.execIgnoredCommand w s
  | .consumer lanes w => Sys2Proof.Machine.execConsumer lanes w s
  | .enable lanes w => Sys2Proof.Machine.execEnable lanes w s
  | .acknowledge lanes w => Sys2Proof.Machine.execAcknowledge lanes w s
  | .commandOverrun lanes w => Sys2Proof.Machine.execCommandOverrun lanes w s

end Sys2Proof.Machine
end

