-- ==== Sys2Proof/Safety.lean ====
section
/-! DEFINITION. What the statements about the FZ408 are said with: when a state has nothing left to do between two
events, the invariants of the machine, and the spec's own maps (the region map of chapter 2, the effect of a report on
a port, the result and status requests of chapter 10) written apart from the meanings. -/

namespace Sys2Proof.Machine

/-! ### Between two events -/

/-- The command answers a next state, and that state is as `P` says. -/
def Completes (c : Instr) (s : State) (P : State → Prop) : Prop := ∃ t, exec c s = .next t ∧ P t

/-- The entry is DECIDED (R3). -/
def QEntry.isDecided (e : QEntry) : Bool :=
  match e.phase with
  | .decided _ => true
  | .waiting | .admitted _ | .issued _ _ _ => false

/-- A Port Unit has nothing to give or accept: its oldest entry is not DECIDED (R4), and a request stands on its
link only while the queue is full (R2). -/
def PortUnit.settled (u : PortUnit) : Bool :=
  (u.queue.head?.all fun e => !e.isDecided) && (u.link.isNone || decide (Config.queueDepth ≤ u.queue.length))

/-- STOP is due to complete, with or without the discard of R141 (R165). -/
def State.stopDue (s : State) : Bool :=
  decide (s.opState = .stopping) && s.enginesIdle && s.bufferEmpty &&
    (s.staged.isEmpty || (!s.writingHead && s.ringFull))

/-- Nothing is due: every response that can be given is given (R4), STOP is not due to complete (R165), IRQ_N follows
the causes (R173), and no change of the status word is left without its update (R169). -/
def State.settled (s : State) : Bool :=
  (allPorts.all fun p => (s.unit p).settled) && !s.stopDue && decide (s.irqAsserted = s.irqLevel) && !s.statusChanged

/-- RESET_N is not asserted and nothing is due: the state between two events. -/
def State.ready (s : State) : Bool := !s.inReset && s.settled

/-! ### Invariants -/

/-- The capacities: four entries in a port queue (R2), eight issued requests (R106), four staged records (R128), one
waiting status update (R169). -/
def State.withinCapacity (s : State) : Bool :=
  (allPorts.all fun p => decide ((s.queueOf p).length ≤ 4)) && decide (s.issued.length ≤ 8) &&
    decide (s.staged.length ≤ 4) && decide ((s.ctl.filter CtlRequest.isStatus).length ≤ 1)

/-- At most one staged record is WRITING, and it is the head (R128). -/
def State.writesHeadOnly (s : State) : Bool := s.staged.tail.all fun x => !x.writing

/-- The ring indices lie in the ring (R133); with no geometry in force both are 0. -/
def State.indicesInRing (s : State) : Bool :=
  match s.ring with
  | none => decide (s.producer = 0) && decide (s.consumer = 0)
  | some r => decide (0 < r.size) && decide (s.producer < r.size) && decide (s.consumer < r.size)

/-- The rotation of a descriptor's window: 0 for LINEAR, below M for ROTATING (R32, R34). -/
def Checked.allowsRotation (d : Checked) (r : Arg) : Bool :=
  match d.kind with
  | .linear => decide (r = 0)
  | .rotating _ _ m _ => decide (r.toNat < m)

/-- A window's rotation is one its state allows (R34). -/
def Window.rotationFits (v : Window) : Bool :=
  match v.state with
  | .empty => decide (v.rotation = 0)
  | .fetching _ _ _ => true
  | .valid _ d => d.allowsRotation v.rotation
  | .stale _ d => d.allowsRotation v.rotation

/-- Every window's rotation fits (R34). -/
def State.rotationsFit (s : State) : Bool := s.engines.toList.all fun u => u.windows.toList.all Window.rotationFits

/-- A sequence record holds the lock on a word: HOLDING or CLOSING with that sequence word (R110). -/
def Sequence.holdsLockOn (q : Sequence) (w : Word) : Bool :=
  match q with
  | .holding i => decide (i.word = w)
  | .closing i => decide (i.word = w)
  | .free _ | .opening _ => false

/-- The sequence is in phase HOLDING. -/
def Sequence.isHolding : Sequence → Bool
  | .holding _ => true
  | .free _ | .opening _ | .closing _ => false

/-- The lock and the sequence records agree: the owner is HOLDING or CLOSING on the locked word, and only the owner
is HOLDING (R110). -/
def State.lockAgrees (s : State) : Bool :=
  (s.lock.all fun l => (s.seqOf l.owner).holdsLockOn l.word) &&
    (allPorts.all fun p => !(s.seqOf p).isHolding || s.lock.any fun l => decide (l.owner = p))

/-- The window is FETCHING (R34). -/
def Window.isFetching (v : Window) : Bool :=
  match v.state with
  | .fetching _ _ _ => true
  | .empty | .valid _ _ | .stale _ _ => false

/-- The cause of an engine port's hold stands (R6). -/
def State.holdStands (s : State) (e : Engine) : Hold → Bool
  | .loading => decide (s.opState = .loading)
  | .reloadMap => s.reloading
  | .configurePort | .configureLapsed => s.configuring e
  | .window w => (s.window e w).isFetching
  | .bufferSpace => true

/-- The cause of P0's hold stands: RELOAD_MAP, or buffer space (R6). -/
def State.supervisorHoldStands (s : State) : Hold → Bool
  | .reloadMap => s.reloading
  | .bufferSpace => true
  | .loading | .configurePort | .configureLapsed | .window _ => false

/-- Every hold has its cause (R6). -/
def State.holdsStand (s : State) : Bool :=
  (s.ports.p0.hold.all s.supervisorHoldStands) &&
    (allEngines.all fun e => (s.holdOf (.engine e)).all (s.holdStands e))

/-- The command in progress fits the operating state (R160, R161, R165, R168). -/
def State.commandFits (s : State) : Bool :=
  match s.command with
  | none => decide (s.opState ≠ .loading) && decide (s.opState ≠ .stopping)
  | some (.start prior _) => decide (s.opState = .loading) && (decide (prior = .boot) || decide (prior = .halted))
  | some .stop => decide (s.opState = .stopping)
  | some (.loadWindow _ _) | some (.configurePort _) | some (.reloadMap _) | some .drain => decide (s.opState = .active)

/-- The window is FETCHING for a LOAD. -/
def Window.isLoading (v : Window) : Bool :=
  match v.state with
  | .fetching .load _ _ => true
  | .fetching .refetch _ _ | .empty | .valid _ _ | .stale _ _ => false

/-- A window is FETCHING for a LOAD only while its LOAD_WINDOW is in progress (R37, R39). -/
def State.loadsInProgress (s : State) : Bool :=
  allEngines.all fun e => allIndexes.all fun w =>
    !(s.window e w).isLoading || decide (s.command = some (.loadWindow e w))

/-- The command in progress, the operating state, the windows being loaded and the reporting flag agree (R169). -/
def State.commandAgrees (s : State) : Bool :=
  s.commandFits && s.loadsInProgress && (s.command.isNone || s.reporting)

/-- The pieces of an ADMITTED entry reach no byte of the control zone in force (R8, R80). -/
def State.entryIsolated (s : State) (x : QEntry) : Bool :=
  match x.phase with
  | .admitted a => (piecesOf a.first a.second).all fun q => !s.reachesZone q
  | .waiting | .issued _ _ _ | .decided _ => true

/-- No admitted engine request will reach the control zone (R8, R80): every ADMITTED engine entry keeps out of the
zone in force, there is none outside ACTIVE and STOPPING, where the zone may be replaced (R18), and while RESET_N is
asserted no table geometry is in force (R177). -/
def State.isolated (s : State) : Bool :=
  s.commandAgrees && (s.ports.engines.toList.all fun u => u.queue.all s.entryIsolated) &&
    (s.opState.records || s.ports.engines.toList.all fun u => u.queue.all fun x => !x.isAdmitted) &&
    (!s.inReset || s.table.isNone)

/-- No valid HOLE range matches a page of the zone in force (R79), and while RESET_N is asserted no table geometry is
in force (R177). -/
def State.zoneOpen (s : State) : Bool := !holeInvalid s.map.ranges s.zone && (!s.inReset || s.table.isNone)

/-! ### Results and status updates -/

/-- The result write of a command (R158, 12.2). -/
def State.resultRequest (s : State) (code : BitVec 8) (o : CommandOutcome) (detail : Nat) : CtlRequest :=
  ⟨.resultWrite, addBytes (anchorOf s.anc) 0x04, 1, [⟨resultWord code o detail, 15⟩], false⟩

/-- A status update: two words at anchor + 08h, whose contents are taken at its grant (R169). -/
def State.statusRequest (s : State) : CtlRequest := ⟨.statusUpdate, addBytes (anchorOf s.anc) 0x08, 2, [], false⟩

/-- A configuration read of a number of words at an offset of the control block (R15). -/
def State.readRequest (s : State) (k : CtlKind) (offset beats : Nat) : CtlRequest :=
  ⟨k, addBytes (anchorOf s.anc) offset, beats, [], false⟩

/-- The descriptor fetch of a selector (R22). -/
def fetchRequest (t : TableGeometry) (k : Nat) : CtlRequest := ⟨.fetch, addBytes t.base (16 * k), 4, [], false⟩

/-- The controller-originated queue without a status update that waits on it (R169). -/
def State.ctlUnwaiting (s : State) : List CtlRequest := s.ctl.filter fun r => !r.isStatus

/-- The state in which a command has ended: its final result stands behind the requests that waited, no command is in
progress, DONE is set and IRQ_N follows it. A status update stands behind the result where one was waiting, where DONE
was clear, or where the event changed another field of the status word (`changed`) (R158, R169). -/
def State.afterResult (s : State) (code : BitVec 8) (o : CommandOutcome) (detail : Nat) (changed : Bool) : State :=
  { s with
    ctl := s.ctlUnwaiting ++ s.resultRequest code o detail ::
      (if changed || s.statusWaiting || !s.causes.done then [s.statusRequest] else [])
    command := none
    causes := { s.causes with done := true }
    irqAsserted := s.irqAsserted || s.enables.done
    reporting := true }

/-- The state in which a command has become the command in progress: the result IN_PROGRESS and the requests it
needs stand behind those that waited, and a status update, for command busy, behind them (R158, R169). -/
def State.afterBegin (s : State) (code : BitVec 8) (k : Command) (needs : List CtlRequest) : State :=
  { s with
    ctl := s.ctlUnwaiting ++ s.resultRequest code .inProgress 0 :: (needs ++ [s.statusRequest])
    command := some k
    reporting := true }

/-- A port presents an item to the arbiter at a place of its admission order: an ADMITTED queue entry, the second
piece of an entry whose first piece has been issued, at the next place, or a WAITING buffer entry (R92, R104). -/
def State.presentsAt (s : State) (p : Port) (n : Nat) : Candidate → Prop
  | .entry x => x ∈ s.queueOf p ∧ ((∃ a, x.phase = .admitted a ∧ n = a.place) ∨
      ∃ a f, x.phase = .issued a false f ∧ a.second ≠ none ∧ n = a.place + 1)
  | .buffered i v => s.buffer.get i = some v ∧ v.port = p ∧ v.issued = false ∧ n = v.place

/-- The state in which the latched causes have changed and nothing else: IRQ_N follows, and a status update stands at
the tail where a cause changed, the reporting flag is set and none waits (R169, R173). -/
def State.afterCauses (s : State) (c : Causes) : State :=
  { s with
    causes := c
    irqAsserted := { s with causes := c }.irqLevel
    ctl := s.ctl ++ (if c ≠ s.causes ∧ s.reporting ∧ !s.statusWaiting then [s.statusRequest] else []) }

/-- The code of a command that is taken in ACTIVE alone (R158). -/
def activeCode : Instr → Option (BitVec 8)
  | .stop => some 2
  | .loadWindow _ _ _ => some 3
  | .clearWindow _ _ => some 4
  | .rotate _ _ _ => some 5
  | .invalidate _ => some 6
  | .invalidateAll => some 7
  | .releasePort _ => some 8
  | .configurePort _ => some 9
  | .reloadMap => some 10
  | .drain => some 11
  | _ => none

/-- The rows that are a COMMAND write other than a covered 00h (R157). -/
def writesCommand : Instr → Bool
  | .start | .unknownCommand _ | .malformed _ _ | .commandOverrun _ _ => true
  | c => (activeCode c).isSome

/-! ### Responses, holds and ports -/

/-- A Port Unit whose oldest WAITING entry is decided: the hold of the entry ends, and the responses that are due
are given (R4, R6). -/
def PortUnit.respond (u : PortUnit) (r : Response) : PortUnit :=
  ({ u with queue := updateFirst QEntry.isWaiting (QEntry.decide r) u.queue, hold := none } : PortUnit).answer

/-- A Port Unit whose port state has changed: its hold ends. That it was one for CONFIGURE_PORT stays known until the
entry is admitted afresh or the command ends (R144, R148). -/
def PortUnit.afterPortChange (u : PortUnit) : PortUnit :=
  { u with
    hold := if u.hold = some .configurePort ∨ u.hold = some .configureLapsed then some .configureLapsed else none }

/-- A Port Unit whose entries that satisfy `f` are refused: its hold ends, and the responses that are due are given
(R4, R18). -/
def PortUnit.refuseAll (u : PortUnit) (f : QEntry → Bool) (c : RefusalCode) : PortUnit :=
  ({ u with queue := u.queue.map (fun z => if f z then z.decide (.refused c) else z), hold := none } : PortUnit).answer

/-- The state in which STOP has completed: BOOT, the windows emptied and the engine ports DISABLED, the timer stopped,
no command in progress, every WAITING engine entry refused NOT_ACTIVE, no record staged, with OVERFLOW set where one
was discarded, DONE set, and the result OK and a status update behind the requests that waited (R165, R141, R18). -/
def State.stopped (s : State) : State :=
  let c : Causes := { s.causes with done := true, overflow := s.causes.overflow || !s.staged.isEmpty }
  { s with
    ports := ⟨{ s.unit .p0 with hold := none }, s.ports.engines.map fun u => u.refuseAll QEntry.isWaiting .notActive⟩
    engines := s.engines.map fun u => { u with state := .disabled, windows := eightOf Window.reset }
    fetches := s.fetches.map fun f => { f with current := false }
    ctl := s.ctlUnwaiting ++ s.resultRequest 2 .ok 0 :: (if s.reporting then [s.statusRequest] else [])
    staged := []
    nextExpiry := none
    opState := .boot
    command := none
    causes := c
    irqAsserted := { s with causes := c }.irqLevel
    statusChanged := false }

/-- The state an event leaves, with STOP completed where the event has made it due (R165). -/
def State.stopIfDue (s : State) : State := if s.stopDue then s.stopped else s

/-- The window holds a selector (R59). -/
def Window.holdsSelector (v : Window) (k : Nat) : Bool := v.state.selector?.any fun j => decide (j.toNat = k)

/-- Every hold ended (R6). -/
def State.portsUnheld (s : State) : PerPort PortUnit := s.ports.map fun u => { u with hold := none }

/-- Every engine port's windows emptied (R36). -/
def State.enginesEmptied (s : State) : PerEngine EngineUnit :=
  s.engines.map fun u => { u with windows := eightOf Window.reset }

/-- Every fetch cancelled (R62). -/
def State.fetchesCancelled (s : State) : List Fetch := s.fetches.map fun f => { f with current := false }

/-- What a fault report, other than STORM, leaves of an engine port (R126, R150, R151). -/
def EngineUnit.afterReport (u : EngineUnit) : EngineUnit :=
  let c := if u.storm = 255 then 255 else u.storm + 1
  { u with
    storm := c
    state :=
      if u.settings.block then (if u.state = .opened ∨ u.state = .quiet then .blocked else u.state)
      else if u.state = .opened ∧ u.settings.high ≠ 0 ∧ u.settings.high ≤ c then .quiet
      else u.state }

/-- What an interval expiry leaves of an engine port (R153). -/
def EngineUnit.afterExpiry (u : EngineUnit) : EngineUnit :=
  { u with
    storm := 0
    state := if u.state = .quiet ∧ (u.storm ≤ u.settings.low ∨ u.settings.high = 0) then .opened else u.state }

/-! ### The maps of chapters 2 and 5 -/

/-- The distance from BASE that an offset of a region reaches under a rotation (R31, R32). -/
def Checked.distance (d : Checked) (r o : Nat) : Nat :=
  match d.kind with
  | .linear => o
  | .rotating head _ m _ =>
    if head * 256 ≤ o ∧ o < (head + m) * 256 then head * 256 + (o - head * 256 + r * 256) % (m * 256) else o

/-- A checked descriptor whose parts fit its region, as the checks of R28 leave it. -/
def Checked.sound (d : Checked) : Bool :=
  decide (d.base.toNat + d.size * 256 ≤ 2 ^ 32) &&
    match d.kind with
    | .linear => true
    | .rotating head tail m initial => decide (head + m + tail = d.size) && decide (initial.toNat < m)

/-- Some range of the map that matches the page of a byte carries an attribute (R76). -/
def AttributeMap.names (m : AttributeMap) (a : Word) (t : Attr) : Prop :=
  ∃ i, (m.ranges.get i).valid = true ∧ (m.ranges.get i).attr = t ∧
    pageOf a &&& (m.ranges.get i).mask = (m.ranges.get i).base &&& (m.ranges.get i).mask

/-- The operating state may change so in one command (R160). A STOP whose conditions hold already passes through
STOPPING into BOOT in the event that takes it (R165), and reset leads to BOOT. -/
def opMoves (a b : OpState) : Bool :=
  decide (a = b) ||
    match a, b with
    | .boot, .loading | .halted, .loading | .loading, .active | .loading, .boot | .loading, .halted
    | .active, .stopping | .active, .boot | .stopping, .boot | .boot, .halted | .active, .halted
    | .stopping, .halted => true
    | _, _ => false

end Sys2Proof.Machine
end

