-- ==== Sys2Proof/Certificates/Slice0/Obligations.lean ====
section
/-! DEFINITION. The statements about the FZ408, for the provers. -/

open Sys2Proof Sys2Proof.Machine

/-! ### The machine as a whole -/

/-- A step takes the command at the front of the queue and carries it out on the state with the queue's rest; on an
empty queue the part idles (the model's choice, notes/assumptions/22). -/
def Obligations.StepRunsTheFrontCommand : Prop :=
  ∀ (s : State) (c : Instr) (rest : List Instr),
    (s.pending = c :: rest → step s = exec c { s with pending := rest }) ∧
    (s.pending = [] → step s = .next s)

/-- No command touches the queue of the commands that wait. What changes these only by its own event: the HALT cause
is cleared only by the end of START or by reset; the enables change only by an ENABLE word (alone, or within an
answered P0 write) or by reset; the sampled straps change only at reset; the producer moves only by an answered ring
write, by the end of START or by reset. -/
def Obligations.OnlyTheirOwnEventsChangeThem : Prop :=
  (∀ (s t : State) (c : Instr), exec c s = .next t → t.pending = s.pending) ∧
  (∀ (s t : State) (c : Instr), exec c s = .next t → c ≠ .resetAssert →
    (s.causes.halt = true → t.causes.halt = false → ∃ a, c = .startReadAnswer a) ∧
    (t.enables ≠ s.enables → (∃ l w, c = .enable l w) ∨ ∃ a, c = .pieceAnswer a) ∧
    ((t.anc ≠ s.anc ∨ t.div ≠ s.div) → ∃ x y, c = .resetRelease x y) ∧
    (t.producer ≠ s.producer → c = .ringWriteAnswer .ok ∨ ∃ a, c = .startReadAnswer a))

/-- What ends every event leaves nothing due: no response that could be given (R4) and no request that could be
accepted (R2), both in the event in which they fall due (the model's reading, notes/assumptions/11), no STOP that
could complete (R165), IRQ_N at its level (R173), no status update left to raise (R169); and where nothing is due it
changes nothing. Between any two steps nothing is left due. -/
def Obligations.EveryStepLeavesNothingDue : Prop :=
  (∀ (s : State), s.settle.settled = true ∧ (s.settled = true → s.settle = s)) ∧
  (∀ (s t : State), s.settled = true → step s = .next t → t.settled = true)

/-- Every step keeps the capacities: four entries in a port queue, eight issued requests, four staged records, one
waiting status update. Every step keeps the ring indices inside the ring, and only the head of the staging FIFO is
ever WRITING. -/
def Obligations.CapacitiesAndRingAreKept : Prop :=
  (∀ (s t : State), s.withinCapacity = true → step s = .next t → t.withinCapacity = true) ∧
  (∀ (s t : State), step s = .next t →
    (s.indicesInRing = true → t.indicesInRing = true) ∧ (s.writesHeadOnly = true → t.writesHeadOnly = true))

/-- Every step keeps every window's rotation within its descriptor: 0 in an EMPTY window and for a LINEAR descriptor,
below M for a ROTATING one. -/
def Obligations.RotationsStayBelowTheMiddle : Prop :=
  ∀ (s t : State), s.rotationsFit = true → step s = .next t → t.rotationsFit = true

/-- Every step keeps the lock and the sequence records in agreement: the owner is HOLDING or CLOSING on the locked
word, and no other port is HOLDING. -/
def Obligations.LockAndSequencesAgree : Prop :=
  ∀ (s t : State), s.lockAgrees = true → step s = .next t → t.lockAgrees = true

/-- Every step keeps every hold at admission with its cause: LOADING, RELOAD_MAP or CONFIGURE_PORT in progress, a
window that is FETCHING, or buffer space. Every step keeps the command in progress, the operating state, the windows
being loaded and the reporting flag in agreement. -/
def Obligations.CommandsAndHoldsAgree : Prop :=
  (∀ (s t : State), s.holdsStand = true → step s = .next t → t.holdsStand = true) ∧
  (∀ (s t : State), s.commandAgrees = true → step s = .next t → t.commandAgrees = true)

/-- Every step keeps the admitted engine requests out of the control zone: each piece of an ADMITTED engine entry
reaches no byte of the zone in force, whatever windows, rotations and geometries came into force since. -/
def Obligations.EngineRequestsKeepOutOfTheZone : Prop :=
  ∀ (s t : State), s.isolated = true → step s = .next t → t.isolated = true

/-- Every step keeps the HOLE ranges in force off the pages of the control zone, and so no byte of the zone has the
attribute HOLE. -/
def Obligations.HoleRangesKeepOffTheZone : Prop :=
  ∀ (s t : State) (a : Word), s.zoneOpen = true → step s = .next t →
    t.zoneOpen = true ∧ (t.inZone a = true → t.map.attrOf a ≠ .hole)

/-- The values the spec gives the part after the release of RESET_N. Each invariant holds at reset. -/
def Obligations.ResetState : Prop :=
  ((∀ p : Port, (State.reset.unit p).queue = [] ∧ (State.reset.unit p).link = none ∧
      (State.reset.unit p).hold = none ∧ State.reset.seqOf p = .free false) ∧
    (∀ e : Engine, (State.reset.eng e).state = .disabled ∧ (State.reset.eng e).settings = ⟨false, false, 0, 0, 16⟩ ∧
      (State.reset.eng e).storm = 0 ∧ ∀ w : Index8, State.reset.window e w = ⟨.empty, 0⟩) ∧
    (∀ i : Index8, State.reset.buffer.get i = none ∧ (State.reset.map.ranges.get i).valid = false) ∧
    State.reset.p0LockLimit = 16 ∧ State.reset.fetches = [] ∧ State.reset.table = none ∧ State.reset.ring = none ∧
    State.reset.zone = [] ∧ State.reset.map.defaultPosted = false ∧ State.reset.issued = [] ∧
    State.reset.roundRobin = .engine .p3 ∧ State.reset.ctl = [] ∧ State.reset.lock = none ∧
    State.reset.staged = [] ∧ State.reset.producer = 0 ∧ State.reset.consumer = 0 ∧
    State.reset.nextExpiry = none ∧ State.reset.opState = .boot ∧ State.reset.command = none ∧
    State.reset.reporting = false ∧ State.reset.causes = ⟨false, false, false, false, false⟩ ∧
    State.reset.queueCause = false ∧ State.reset.enables = ⟨false, false, false, false, false⟩ ∧
    State.reset.irqAsserted = false ∧ State.reset.now = 0) ∧
  (State.reset.ready = true ∧ State.reset.withinCapacity = true ∧ State.reset.indicesInRing = true ∧
    State.reset.writesHeadOnly = true ∧ State.reset.rotationsFit = true ∧ State.reset.lockAgrees = true ∧
    State.reset.holdsStand = true ∧ State.reset.commandAgrees = true ∧ State.reset.isolated = true ∧
    State.reset.zoneOpen = true)

/-- The operating state moves only as the table of R160 allows. -/
def Obligations.OperatingStateTransitions : Prop :=
  ∀ (s t : State) (c : Instr), s.commandAgrees = true → exec c s = .next t →
    opMoves s.opState t.opState = true ∨ c = .resetAssert

/-- After every command IRQ_N is asserted exactly when HALT is set or another cause is both set and enabled. -/
def Obligations.IrqFollowsCausesAndEnables : Prop :=
  ∀ (s t : State) (c : Instr), s.settled = true → exec c s = .next t →
    (t.irqAsserted = true ↔ t.causes.halt = true ∨ (t.producer ≠ t.consumer ∧ t.enables.queue = true) ∨
      (t.causes.overflow = true ∧ t.enables.overflow = true) ∨ (t.causes.done = true ∧ t.enables.done = true) ∨
      (t.causes.overrun = true ∧ t.enables.overrun = true) ∨ (t.causes.misuse = true ∧ t.enables.misuse = true))

/-- Whatever command changes the status word or the producer while reporting is on, a status update stands on the
controller-originated queue after it. -/
def Obligations.StatusUpdateFollowsEveryChange : Prop :=
  ∀ (s t : State) (c : Instr), s.settled = true → exec c s = .next t → t.reporting = true →
    (t.statusWord ≠ s.statusWord ∨ t.producer ≠ s.producer) → t.statusWaiting = true

/-! ### Reset, the timebase and acceptance -/

/-- RESET_ASSERT puts every block at its reset values; the two fields that are the model's own stay
(notes/assumptions/28). RESET_RELEASE samples the straps and starts the timebase at 0; with RESET_N not asserted a
strap change has no effect (the model's reading, notes/assumptions/2). While RESET_N is asserted no other command
changes anything. -/
def Obligations.ResetHoldsEveryBlock : Prop :=
  (∀ (s : State), exec .resetAssert s =
    .next { State.reset with inReset := true, freeCounter := s.freeCounter, pending := s.pending }) ∧
  (∀ (s : State) (anc : BitVec 12) (div : BitVec 3),
    (s.inReset = true → exec (.resetRelease anc div) s =
      .next { s with inReset := false, anc := anc, div := div, now := 0 }) ∧
    (s.inReset = false → exec (.resetRelease anc div) s = .next s)) ∧
  (∀ (s : State) (c : Instr), s.inReset = true → c.wf = true → c ≠ .resetAssert →
    (∀ x y, c ≠ .resetRelease x y) → exec c s = .next s)

/-- TIMEBASE_TICK adds one to the 16-bit count, which wraps; where no expiry is due it changes nothing else. The lock
timer's expiry is due at the lock's start plus its limit, and the interval timer's at its next expiry. An expiry that is
due at the count is taken before the count moves, and where both are due one after the other, in an order the model
leaves free (the model's choice, notes/assumptions/9). -/
def Obligations.TimebaseTicks : Prop :=
  ∀ (s t : State), s.ready = true →
    let used : State := { s with freeCounter := s.freeCounter + 1 }
    (s.lockDue = true ↔ ∃ l, s.lock = some l ∧ s.now = l.start + l.limit.setWidth 16) ∧
    (s.intervalDue = true ↔ s.nextExpiry = some s.now) ∧
    (Completes .timebaseTick s fun t => t.now = s.now + 1) ∧
    (s.lockDue = false → s.intervalDue = false → exec .timebaseTick s = .next { s with now := s.now + 1 }) ∧
    (s.lockDue = true → s.intervalDue = false → exec .lockTimerExpiry s = .next t →
      exec .timebaseTick s = .next { t with now := s.now + 1 }) ∧
    (s.lockDue = false → s.intervalDue = true → exec .intervalExpiry s = .next t →
      exec .timebaseTick s = .next { t with now := s.now + 1 }) ∧
    (s.lockDue = true → s.intervalDue = true →
      (∀ t u, exec .lockTimerExpiry used = .next t → exec .intervalExpiry t = .next u →
        exec .timebaseTick s = .next { u with now := s.now + 1 }) ∨
      (∀ t u, exec .intervalExpiry used = .next t → exec .lockTimerExpiry t = .next u →
        exec .timebaseTick s = .next { u with now := s.now + 1 }))

/-- REQUEST_ACCEPT: with fewer than four entries the request is appended WAITING; with four it stays on the link; the
operating state and the port state play no part. A second request while one stands on the link has no effect
(the model's choice, notes/assumptions/8), and a request the link has no encoding for is refused by name: it encodes 1
to 16 beats, one for a locked kind, with one data word per beat for the kinds that write and none for the others, and
address bits 31..2. A Port Unit gives the responses of the DECIDED entries at the front of its queue, in order, and then
accepts the request on its link where fewer than four entries stand behind them. -/
def Obligations.RequestsAreAccepted : Prop :=
  (∀ (r : Request),
    (r.wf = true ↔ 1 ≤ r.beats ∧ r.beats ≤ 16 ∧
      (r.kind = .lockRead ∨ r.kind = .unlockWrite ∨ r.kind = .unlock → r.beats = 1) ∧
      r.data.length = (if r.kind = .write ∨ r.kind = .unlockWrite then r.beats else 0)) ∧
    r.addr.toNat = 4 * r.wordAddr.toNat) ∧
  (∀ (u : PortUnit) (front : List (Request × Response)) (back : List QEntry) (r : Request),
    u.queue = front.map (fun y => ⟨y.1, .decided y.2⟩) ++ back → (back.head?.all fun y => !y.isDecided) = true →
    let kept : PortUnit := { u with queue := back, given := u.given ++ front.map Prod.snd }
    (u.link = none → u.answer = kept) ∧
    (u.link = some r → 4 ≤ back.length → u.answer = kept) ∧
    (u.link = some r → back.length < 4 → u.answer = { kept with queue := back ++ [⟨r, .waiting⟩], link := none })) ∧
  (∀ (s : State) (p : Port) (r : Request), s.ready = true →
    (r.wf = true → (s.unit p).link = none → (s.queueOf p).length < 4 → exec (.requestAccept p r) s =
      .next { s with ports := s.ports.set p { s.unit p with queue := s.queueOf p ++ [⟨r, .waiting⟩] } }) ∧
    (r.wf = true → (s.unit p).link = none → 4 ≤ (s.queueOf p).length → exec (.requestAccept p r) s =
      .next { s with ports := s.ports.set p { s.unit p with link := some r } }) ∧
    (r.wf = true → (s.unit p).link ≠ none → exec (.requestAccept p r) s = .next s) ∧
    (r.wf = false → exec (.requestAccept p r) s = .refused .noLinkEncoding))

/-! ### Admission -/

/-- An engine request admitted in BOOT or STOPPING is refused NOT_ACTIVE, and in HALTED it is refused HALTED, with no
fault and no storm count. An engine request admitted in ACTIVE on a port that is DISABLED, BLOCKED or QUIET is refused
with that code and no fault, also while RELOAD_MAP or the CONFIGURE_PORT of the port is in progress; a QUIET refusal
alone is counted, up to 255. (A request whose hold for CONFIGURE_PORT a change of the port state ended: another
statement.) -/
def Obligations.EngineRequestsAreRefused : Prop :=
  (∀ (s : State) (e : Engine) (x : QEntry), s.ready = true → s.holdOf (.engine e) = none →
    oldestWaiting (s.queueOf (.engine e)) = some x →
    (s.opState = .boot ∨ s.opState = .stopping → exec (.admission (.engine e)) s =
      .next { s with ports := s.ports.set (.engine e) ((s.unit (.engine e)).respond (.refused .notActive)) }) ∧
    (s.opState = .halted → exec (.admission (.engine e)) s =
      .next { s with ports := s.ports.set (.engine e) ((s.unit (.engine e)).respond (.refused .halted)) })) ∧
  (∀ (s : State) (e : Engine) (x : QEntry), s.ready = true → s.holdOf (.engine e) = none →
    oldestWaiting (s.queueOf (.engine e)) = some x → s.opState = .active →
    ((s.eng e).state = .disabled → exec (.admission (.engine e)) s =
      .next { s with ports := s.ports.set (.engine e) ((s.unit (.engine e)).respond (.refused .disabled)) }) ∧
    ((s.eng e).state = .blocked → exec (.admission (.engine e)) s =
      .next { s with ports := s.ports.set (.engine e) ((s.unit (.engine e)).respond (.refused .blocked)) }) ∧
    ((s.eng e).state = .quiet → exec (.admission (.engine e)) s =
      .next { s with
        ports := s.ports.set (.engine e) ((s.unit (.engine e)).respond (.refused .quiet))
        engines := s.engines.set e { s.eng e with
          storm := if (s.eng e).storm = 255 then 255 else (s.eng e).storm + 1 } }))

/-- Admission holds the oldest WAITING entry, and changes nothing else: an engine entry in LOADING; every port's entry
while RELOAD_MAP is in progress; that engine port's entry while its CONFIGURE_PORT is in progress; an engine entry
whose window is FETCHING. While a hold stands, and with no WAITING entry, ADMISSION has no effect (the model's
reading, notes/assumptions/6 and 12). RELOAD_MAP, or an engine port's CONFIGURE_PORT, is in progress exactly where it is
the command in progress. A request held on a STALE window: the window becomes FETCHING for a REFETCH of
its selector with its flag clear and its rotation kept, one fetch of that selector is raised, and nothing else
changes. A request whose hold for CONFIGURE_PORT a change of the port state ended is admitted afresh like any other;
with that command still in progress and its port BLOCKED or QUIET it is held again or refused, which the model leaves
free (the model's choice between two outcomes that the spec gives, notes/assumptions/31). -/
def Obligations.AdmissionIsHeld : Prop :=
  (∀ (s : State) (e : Engine) (x : QEntry), s.ready = true → s.holdOf (.engine e) = some .configureLapsed →
    oldestWaiting (s.queueOf (.engine e)) = some x →
    let held := fun (h : Option Hold) => s.ports.set (.engine e) { s.unit (.engine e) with hold := h }
    let closed := (s.eng e).state = .blocked ∨ (s.eng e).state = .quiet
    (s.opState = .active → s.configuring e = true → closed →
      exec (.admission (.engine e)) s =
        .next { s with ports := held (some .configurePort), freeCounter := s.freeCounter + 1 } ∨
      exec (.admission (.engine e)) s =
        exec (.admission (.engine e)) { s with ports := held none, freeCounter := s.freeCounter + 1 }) ∧
    (s.opState ≠ .active ∨ s.configuring e = false ∨ ¬ closed →
      exec (.admission (.engine e)) s = exec (.admission (.engine e)) { s with ports := held none })) ∧
  (∀ (s : State) (e : Engine), (s.reloading = true ↔ ∃ x, s.command = some (.reloadMap x)) ∧
    (s.configuring e = true ↔ s.command = some (.configurePort (.engine e)))) ∧
  (∀ (s : State) (p : Port) (e : Engine) (x : QEntry), s.ready = true →
    ((s.holdOf p ≠ none ∧ s.holdOf p ≠ some .configureLapsed) ∨ oldestWaiting (s.queueOf p) = none →
      exec (.admission p) s = .next s) ∧
    (s.holdOf (.engine e) = none → oldestWaiting (s.queueOf (.engine e)) = some x →
      (s.opState = .loading → exec (.admission (.engine e)) s =
        .next { s with ports := s.ports.set (.engine e) { s.unit (.engine e) with hold := some .loading } }) ∧
      (s.opState = .active → (s.eng e).state = .opened →
        (s.reloading = true → exec (.admission (.engine e)) s =
          .next { s with ports := s.ports.set (.engine e) { s.unit (.engine e) with hold := some .reloadMap } }) ∧
        (s.configuring e = true → exec (.admission (.engine e)) s =
          .next { s with ports := s.ports.set (.engine e) { s.unit (.engine e) with hold := some .configurePort } }) ∧
        (s.reloading = false → s.configuring e = false → (s.window e (windowIndex x.req.addr)).isFetching = true →
          exec (.admission (.engine e)) s = .next { s with
            ports := s.ports.set (.engine e)
              { s.unit (.engine e) with hold := some (.window (windowIndex x.req.addr)) } }))) ∧
    (s.holdOf .p0 = none → oldestWaiting (s.queueOf .p0) = some x → s.opState = .active → s.reloading = true →
      exec (.admission .p0) s =
        .next { s with ports := s.ports.set .p0 { s.unit .p0 with hold := some .reloadMap } })) ∧
  (∀ (s : State) (e : Engine) (x : QEntry) (k : Selector) (d : Checked) (g : TableGeometry), s.ready = true →
    s.holdOf (.engine e) = none → oldestWaiting (s.queueOf (.engine e)) = some x → s.opState = .active →
    (s.eng e).state = .opened → s.reloading = false → s.configuring e = false → s.table = some g →
    (s.window e (windowIndex x.req.addr)).state = .stale k d →
    exec (.admission (.engine e)) s = .next { s with
      ports := s.ports.set (.engine e)
        { s.unit (.engine e) with hold := some (.window (windowIndex x.req.addr)) }
      engines := s.engines.set e { s.eng e with
        windows := (s.eng e).windows.set (windowIndex x.req.addr)
          { s.window e (windowIndex x.req.addr) with state := .fetching .refetch k false } }
      fetches := s.fetches ++ [⟨e, windowIndex x.req.addr, k, .refetch, true⟩]
      ctl := s.ctl ++ [fetchRequest g k.toNat] })

/-- A byte lies in the control zone exactly where table and ring geometry are in force and it lies in the control block,
the table or the ring; a burst reaches four bytes for each beat, wrapping at 4 GiB. Steps 1 to 5 for P0: in BOOT,
LOADING and HALTED every request passes unchecked with the address on the link and is never posted; in ACTIVE and
STOPPING a byte outside the zone in a HOLE refuses it, and otherwise it passes, posted only where it is of a kind
that is not locked and all its bytes are POSTED and outside the zone. -/
def Obligations.SupervisorPaths : Prop :=
  (∀ (s : State) (a : Word) (n : Nat),
    let from_ := fun (b : Nat) (size : Nat) => b ≤ a.toNat ∧ a.toNat < b + size
    (s.inZone a = true ↔ ∃ t g, s.table = some t ∧ s.ring = some g ∧ (from_ (s.anc.toNat * 2 ^ 20) 256 ∨
      from_ t.base.toNat (16 * t.count) ∨ from_ g.base.toNat (16 * g.size))) ∧
    beatBytes a n = (List.range (4 * n)).map fun k => a + BitVec.ofNat 32 k) ∧
  (∀ (s : State) (r : Request),
    (s.opState = .boot ∨ s.opState = .loading ∨ s.opState = .halted →
      s.verdict .p0 r = .passed ⟨r.addr, r.beats, r.data⟩ none none false) ∧
    (s.opState = .active ∨ s.opState = .stopping → s.reloading = false →
      ((∃ a ∈ beatBytes r.addr r.beats, s.inZone a = false ∧ s.map.attrOf a = .hole) →
        s.verdict .p0 r = .faulted .hole none none (some r.addr)) ∧
      ((∀ a ∈ beatBytes r.addr r.beats, s.inZone a = true ∨ s.map.attrOf a ≠ .hole) →
        s.verdict .p0 r = .passed ⟨r.addr, r.beats, r.data⟩ none none
          (!r.kind.isLocked && (beatBytes r.addr r.beats).all fun a =>
            !s.inZone a && decide (s.map.attrOf a = .posted)))))

/-- The faults of an engine request in ACTIVE on an OPEN port with no command hold, in their order: NO_WINDOW through
an EMPTY window; through a VALID one RIGHTS, LIMIT, SPLIT, then ZONE with the start of the first piece that holds a
zone byte, then HOLE with the start of the first piece that holds a HOLE byte. A descriptor grants READ by READ, WRITE
by WRITE, and the three locked kinds by READ, WRITE and LOCK together. The window is address bits 31..29 and the offset
bits 28..0. A request splits where its offsets hold bytes on both sides of the start or of the end of the middle part
of a ROTATING region, and never in a LINEAR one. A piece reaches the zone, or a HOLE, where one of its bytes does. -/
def Obligations.EngineFaultsInOrder : Prop :=
  (∀ (a : Word), (windowIndex a).val = a.toNat / 2 ^ 29 ∧ windowOffset a = a.toNat % 2 ^ 29) ∧
  (∀ (d : Checked) (o n head tail m : Nat) (initial : Arg),
    (d.kind = .linear → d.splits o n = false) ∧
    (d.kind = .rotating head tail m initial → (d.splits o n = true ↔ ∃ b ∈ [head * 256, (head + m) * 256],
      ∃ x y, o ≤ x ∧ x < b ∧ b ≤ y ∧ y < o + n))) ∧
  (∀ (s : State) (q : Piece),
    q.bytes = (List.range (4 * q.beats)).map (fun k => q.addr + BitVec.ofNat 32 k) ∧
    (s.reachesZone q = true ↔ ∃ x ∈ q.bytes, s.inZone x = true) ∧
    (s.reachesHole q = true ↔ ∃ x ∈ q.bytes, s.map.attrOf x = .hole)) ∧
  (∀ (d : Checked), d.grants .read = d.read ∧ d.grants .write = d.write ∧
    ∀ x ∈ [Access.lockRead, .unlockWrite, .unlock], d.grants x = (d.read && d.write && d.lock)) ∧
  (∀ (s : State) (e : Engine) (r : Request) (k : Selector) (d : Checked) (q : Piece), s.opState = .active →
    (s.eng e).state = .opened → s.reloading = false → s.configuring e = false →
    ((s.window e (windowIndex r.addr)).state = .empty →
      s.verdict (.engine e) r = .faulted .noWindow (some (windowIndex r.addr)) none none) ∧
    ((s.window e (windowIndex r.addr)).state = .valid k d →
      (d.grants r.kind = false →
        s.verdict (.engine e) r = .faulted .rights (some (windowIndex r.addr)) (some k) none) ∧
      (d.grants r.kind = true →
        (d.size * 256 ≤ windowOffset r.addr + 4 * r.beats - 1 →
          s.verdict (.engine e) r = .faulted .limit (some (windowIndex r.addr)) (some k) none) ∧
        (windowOffset r.addr + 4 * r.beats - 1 < d.size * 256 →
          (d.splits (windowOffset r.addr) (4 * r.beats) = true →
            s.verdict (.engine e) r = .faulted .split (some (windowIndex r.addr)) (some k) none) ∧
          (d.splits (windowOffset r.addr) (4 * r.beats) = false →
            let t := d.translate (s.window e (windowIndex r.addr)).rotation.toNat (windowOffset r.addr) r.beats r.data
            ((piecesOf t.1 t.2).find? s.reachesZone = some q →
              s.verdict (.engine e) r =
                .faulted .zone (some (windowIndex r.addr)) (some k) (some q.addr)) ∧
            ((piecesOf t.1 t.2).any s.reachesZone = false → (piecesOf t.1 t.2).find? s.reachesHole = some q →
              s.verdict (.engine e) r =
                .faulted .hole (some (windowIndex r.addr)) (some k) (some q.addr)))))))

/-- An engine request passes steps 1 to 5 exactly in ACTIVE on an OPEN port with no command hold, through a VALID window
whose descriptor grants its kind and whose region and part hold all its offsets, with its pieces as translation gives
them, no byte of which lies in the control zone or in a HOLE; it is posted exactly where it is not locked and every byte
is POSTED. -/
def Obligations.EnginePassesOnlyAllowedBytes : Prop :=
  ∀ (s : State) (e : Engine) (r : Request) (a : Piece) (b : Option Piece) (v : Option Via) (posted : Bool),
    s.verdict (.engine e) r = .passed a b v posted ↔
    s.opState = .active ∧ (s.eng e).state = .opened ∧ s.reloading = false ∧ s.configuring e = false ∧
    ∃ k d, (s.window e (windowIndex r.addr)).state = .valid k d ∧ v = some ⟨windowIndex r.addr, k⟩ ∧
      d.grants r.kind = true ∧ windowOffset r.addr + 4 * r.beats - 1 < d.size * 256 ∧
      d.splits (windowOffset r.addr) (4 * r.beats) = false ∧
      (a, b) = d.translate (s.window e (windowIndex r.addr)).rotation.toNat (windowOffset r.addr) r.beats r.data ∧
      (∀ q ∈ piecesOf a b, ∀ x ∈ q.bytes, s.inZone x = false ∧ s.map.attrOf x ≠ .hole) ∧
      (posted = true ↔ r.kind.isLocked = false ∧ ∀ q ∈ piecesOf a b, ∀ x ∈ q.bytes, s.map.attrOf x = .posted)

/-- The pieces of a request within one part of its region are the region map of chapter 2 beat by beat: taken together
in piece order they carry the beats in order to the words that the map gives each beat's offset, and the data with
them. -/
def Obligations.TranslationFollowsTheRegionMap : Prop :=
  ∀ (d : Checked) (rotation : Arg) (o beats : Nat) (data : List Beat), d.sound = true →
    d.allowsRotation rotation = true → o % 4 = 0 → 1 ≤ beats → beats ≤ 16 → o + 4 * beats ≤ d.size * 256 →
    d.splits o (4 * beats) = false →
    let t := d.translate rotation.toNat o beats data
    (piecesOf t.1 t.2).flatMap Piece.words =
        (List.range beats).map (fun i => addBytes d.base (d.distance rotation.toNat (o + 4 * i))) ∧
      (piecesOf t.1 t.2).flatMap Piece.data = data ∧
      ∀ q ∈ piecesOf t.1 t.2, 1 ≤ q.beats

/-- A request that has passed steps 1 to 6 is routed: a READ, or a WRITE that is not posted, becomes ADMITTED with its
pieces and takes its places in the port's order; a LOCK_READ of a port in FREE also opens the port's sequence; a
posted WRITE fills the lowest-numbered free entry for each piece and is decided DONE, or is held where fewer entries
are free than it has pieces. A READ or WRITE passes step 6 where it does not touch the port's sequence word, and
always in CLOSING. A LOST flag of a port in FREE is cleared, also where the WRITE is then held (the model's reading,
notes/assumptions/14). -/
def Obligations.PassedRequestsAreRouted : Prop :=
  (∀ (s : State) (i : Index8),
    (s.lowestFree = some i ↔ s.buffer.get i = none ∧ ∀ j, j < i → s.buffer.get j ≠ none) ∧
    (s.lowestFree = none ↔ ∀ j, s.buffer.get j ≠ none) ∧
    s.freeEntries = ((List.finRange 8).filter fun j => (s.buffer.get j).isNone).length) ∧
  (∀ (s : State) (p : Port) (x : QEntry) (a : Piece) (b : Option Piece) (v : Option Via) (posted lost : Bool)
    (i j : Index8) (z : Piece), s.ready = true → s.holdOf p = none → oldestWaiting (s.queueOf p) = some x →
    s.verdict p x.req = .passed a b v posted →
    let plain := (s.seqOf p).touchedBy (piecesOf a b) = false ∨ ∃ n, s.seqOf p = .closing n
    let kept := s.seqs.set p (match s.seqOf p with
      | .free _ => .free false
      | .opening n => .opening n
      | .holding n => .holding n
      | .closing n => .closing n)
    let filled := s.buffer.set i (some ⟨p, (s.unit p).nextPlace, x.req.addr, a, v, false, false⟩)
    (x.req.kind = .read ∨ (x.req.kind = .write ∧ posted = false) → plain → exec (.admission p) s = .next { s with
      ports := s.ports.set p { s.unit p with
        queue := updateFirst QEntry.isWaiting
          (fun y => ⟨y.req, .admitted ⟨(s.unit p).nextPlace, a, b, v, false⟩⟩) (s.queueOf p)
        nextPlace := (s.unit p).nextPlace + (if b = none then 1 else 2) }
      seqs := kept }) ∧
    (x.req.kind = .lockRead → s.seqOf p = .free lost → exec (.admission p) s = .next { s with
      ports := s.ports.set p { s.unit p with
        queue := updateFirst QEntry.isWaiting
          (fun y => ⟨y.req, .admitted ⟨(s.unit p).nextPlace, a, b, v, true⟩⟩) (s.queueOf p)
        nextPlace := (s.unit p).nextPlace + (if b = none then 1 else 2) }
      seqs := s.seqs.set p (.opening ⟨a.addr, x.req.addr, v⟩) }) ∧
    (x.req.kind = .write → posted = true → plain → b = none → s.lowestFree = some i →
      exec (.admission p) s = .next { s with
        ports := s.ports.set p { (s.unit p).respond (.done []) with nextPlace := (s.unit p).nextPlace + 1 }
        buffer := filled
        seqs := kept }) ∧
    (x.req.kind = .write → posted = true → plain → b = some z → s.lowestFree = some i →
      ({ s with buffer := filled } : State).lowestFree = some j → exec (.admission p) s = .next { s with
      ports := s.ports.set p { (s.unit p).respond (.done []) with nextPlace := (s.unit p).nextPlace + 2 }
      buffer := filled.set j (some ⟨p, (s.unit p).nextPlace + 1, addBytes x.req.addr (4 * a.beats), z, v,
        false, false⟩)
      seqs := kept }) ∧
    (x.req.kind = .write → posted = true → plain → s.freeEntries < (if b = none then 1 else 2) →
      exec (.admission p) s = .next { s with
        ports := s.ports.set p { s.unit p with hold := some .bufferSpace }
        seqs := kept }))

/-- A request found faulty at steps 1 to 5 is refused with the fault's code: the port's oldest WAITING entry is decided
and its hold ends. The fault is reported with a record of
repeat 1 and the count of the moment; a record of P0 has no window and no selector, and its physical address is its
logical address. -/
def Obligations.FaultRefusalIsReported : Prop :=
  (∀ (s : State) (p : Port) (r : Response), s.decideWaiting p r = { s with
    ports := s.ports.set p { s.unit p with
      queue := updateFirst QEntry.isWaiting (fun y => ⟨y.req, .decided r⟩) (s.queueOf p), hold := none } }) ∧
  (∀ (s : State) (p : Port) (x : QEntry) (k : FaultKind) (w : Option Index8) (j : Option Selector)
    (phys : Option Word), s.ready = true → s.holdOf p = none → oldestWaiting (s.queueOf p) = some x →
    s.verdict p x.req = .faulted k w j phys →
    exec (.admission p) s = .next ((s.decideWaiting p (.refused (.fault k))).report
      (match p with
        | .p0 => ⟨k, .p0, none, x.req.kind, x.req.beats, 1, x.req.addr, some x.req.addr, none, s.now⟩
        | .engine e => ⟨k, .engine e, w, x.req.kind, x.req.beats, 1, x.req.addr, phys, j, s.now⟩)).settle)

/-- The sequence check of step 6 by phase, LOST flag, access kind and whether the request touches the sequence word,
which it does where a beat of one of its pieces addresses that word: what passes, what is refused LOCK_LOST or
LOCK_SEQUENCE, and the phase after it. At admission: a closing request of a port in FREE is refused LOCK_LOST where
LOST is set, which clears it, with no fault, and is refused LOCK_SEQUENCE and reported where it is clear. A LOCK_READ,
a closing request that does not touch the word, and a READ or WRITE that does, break a sequence in OPENING or HOLDING:
they are refused LOCK_SEQUENCE and reported, and the sequence ends, from HOLDING with the lock, from OPENING with the
port's admitted LOCK_READ marked to open no lock. A closing request that touches the word becomes ADMITTED, and the
phase CLOSING. In CLOSING a LOCK_READ or a closing request is refused LOCK_SEQUENCE and reported, and the sequence and
the lock stay. -/
def Obligations.SequencesAreChecked : Prop :=
  (∀ (i j : SeqInfo) (touch lost : Bool) (kind : Access),
    (kind = .unlock ∨ kind = .unlockWrite →
      lockStep (.free true) kind touch j = ⟨.lost, .free false, false, false⟩ ∧
      lockStep (.free false) kind touch j = ⟨.sequence, .free false, false, false⟩ ∧
      lockStep (.opening i) kind true j = ⟨.passed, .closing i, false, false⟩ ∧
      lockStep (.holding i) kind true j = ⟨.passed, .closing i, false, false⟩ ∧
      lockStep (.opening i) kind false j = ⟨.sequence, .free false, false, true⟩ ∧
      lockStep (.holding i) kind false j = ⟨.sequence, .free false, true, false⟩ ∧
      lockStep (.closing i) kind touch j = ⟨.sequence, .closing i, false, false⟩) ∧
    (kind = .lockRead →
      lockStep (.free lost) kind touch j = ⟨.passed, .opening j, false, false⟩ ∧
      lockStep (.opening i) kind touch j = ⟨.sequence, .free false, false, true⟩ ∧
      lockStep (.holding i) kind touch j = ⟨.sequence, .free false, true, false⟩ ∧
      lockStep (.closing i) kind touch j = ⟨.sequence, .closing i, false, false⟩) ∧
    (kind = .read ∨ kind = .write →
      lockStep (.free lost) kind touch j = ⟨.passed, .free false, false, false⟩ ∧
      lockStep (.opening i) kind true j = ⟨.sequence, .free false, false, true⟩ ∧
      lockStep (.holding i) kind true j = ⟨.sequence, .free false, true, false⟩ ∧
      lockStep (.opening i) kind false j = ⟨.passed, .opening i, false, false⟩ ∧
      lockStep (.holding i) kind false j = ⟨.passed, .holding i, false, false⟩ ∧
      lockStep (.closing i) kind touch j = ⟨.passed, .closing i, false, false⟩)) ∧
  (∀ (q : Sequence) (ps : List Piece) (z : Piece),
    (q.touchedBy ps = true ↔ ∃ i, (q = .opening i ∨ q = .holding i ∨ q = .closing i) ∧ ∃ y ∈ ps, i.word ∈ y.words) ∧
    z.words = (List.range z.beats).map fun k => z.addr + BitVec.ofNat 32 (4 * k)) ∧
  (∀ (s : State) (p : Port) (x : QEntry) (a : Piece) (b : Option Piece) (v : Option Via) (posted : Bool) (i : SeqInfo),
    s.ready = true → s.holdOf p = none → oldestWaiting (s.queueOf p) = some x →
    s.verdict p x.req = .passed a b v posted →
    let touch := (piecesOf a b).any fun y => y.words.any fun w => decide (w = i.word)
    let closes := x.req.kind = .unlock ∨ x.req.kind = .unlockWrite
    let breaks := x.req.kind = .lockRead ∨ (closes ∧ touch = false) ∨
      ((x.req.kind = .read ∨ x.req.kind = .write) ∧ touch = true)
    let refused := fun (z : State) => ((z.decideWaiting p (.refused (.fault .lockSequence))).report
      (match p with
        | .p0 => ⟨.lockSequence, .p0, none, x.req.kind, x.req.beats, 1, x.req.addr, some x.req.addr, none, s.now⟩
        | .engine e => ⟨.lockSequence, .engine e, v.map Via.window, x.req.kind, x.req.beats, 1, x.req.addr, none,
            v.map Via.selector, s.now⟩)).settle
    (s.seqOf p = .free true → closes → exec (.admission p) s = .next { s with
      ports := s.ports.set p ((s.unit p).respond (.refused .lockLost))
      seqs := s.seqs.set p (.free false) }) ∧
    (s.seqOf p = .free false → closes → exec (.admission p) s = .next (refused s)) ∧
    (s.seqOf p = .holding i → breaks →
      exec (.admission p) s = .next (refused { s with lock := none, seqs := s.seqs.set p (.free false) })) ∧
    (s.seqOf p = .opening i → breaks →
      exec (.admission p) s =
        .next (refused (({ s with seqs := s.seqs.set p (.free false) } : State).unmarkLockRead p))) ∧
    (s.seqOf p = .closing i → closes ∨ x.req.kind = .lockRead → exec (.admission p) s = .next (refused s)) ∧
    (s.seqOf p = .opening i ∨ s.seqOf p = .holding i → closes → touch = true → exec (.admission p) s = .next { s with
      ports := s.ports.set p { s.unit p with
        queue := updateFirst QEntry.isWaiting
          (fun y => ⟨y.req, .admitted ⟨(s.unit p).nextPlace, a, b, v, false⟩⟩) (s.queueOf p)
        nextPlace := (s.unit p).nextPlace + (if b = none then 1 else 2) }
      seqs := s.seqs.set p (.closing i) })) ∧
  (∀ (s : State) (p : Port) (front back : List QEntry) (x : QEntry) (a : Admitted),
    s.queueOf p = front ++ x :: back → (∀ y ∈ front, y.req.kind = .lockRead → y.isAdmitted = false) →
    x.req.kind = .lockRead → x.phase = .admitted a → a.opensLock = true →
    s.unmarkLockRead p = { s with ports := s.ports.set p { s.unit p with
      queue := front ++ ⟨x.req, .admitted { a with opensLock := false }⟩ :: back } })

/-! ### Faults -/

/-- A fault report, as one event. Its record is staged in ACTIVE and STOPPING, and the ring write of the head raised
where that is due; it is dropped with OVERFLOW set in LOADING and HALTED, and dropped without in BOOT. In every
operating state it acts on its engine port: in error mode BLOCK an OPEN or QUIET port becomes BLOCKED; the storm
counter is incremented, up to 255; a port left OPEN whose counter reaches H, H not 0, becomes QUIET, and a STORM
record with the port, access, beats, logical address and time of the fault is then taken in the same way; a change of
the port state ends the port's hold (of one for CONFIGURE_PORT it stays known that the request was held for it,
notes/assumptions/31). A report of P0 acts on no port. Nothing else changes. -/
def Obligations.ReportsActOnThePort : Prop :=
  ∀ (s : State) (r : FaultRecord) (e : Engine),
    let recorded := fun (z : State) (y : FaultRecord) => (match s.opState with
      | .active | .stopping => (z.stageRecord y).raiseRingWrite
      | .loading | .halted => { z with
          causes := { z.causes with overflow := true }
          statusChanged := z.statusChanged || !z.causes.overflow }
      | .boot => z : State)
    let storm : FaultRecord := ⟨.storm, r.port, none, r.access, r.beats, 1, r.logical, none, none, r.time⟩
    let u := s.eng e
    let left := u.afterReport
    let t := if u.state = .opened ∧ left.state = .quiet then recorded (recorded s r) storm else recorded s r
    (r.port = .engine e → s.report r = { t with
      engines := s.engines.set e left
      ports := if left.state = u.state then s.ports
        else s.ports.set (.engine e) (s.unit (.engine e)).afterPortChange
      statusChanged := t.statusChanged || decide (left.state ≠ u.state) }) ∧
    (r.port = .p0 → s.report r = recorded s r)

/-- A record to be staged is merged into the newest staged record where that is PENDING and equal in kind, port,
window and access: its repeat count grows, up to 255, and its other fields stay. Otherwise it is appended PENDING
where fewer than four records are staged, and dropped with OVERFLOW set where four are. The ring write of the head is
raised exactly where the state is ACTIVE or STOPPING, a record is staged, none is WRITING and the ring is not full:
four words to slot producer, in record order with all lanes, at the tail of the controller-originated queue, and the
head becomes WRITING. -/
def Obligations.RecordsAreStagedAndWritten : Prop :=
  (∀ (s : State) (r : FaultRecord) (n : Staged),
    (s.staged.getLast? = some n → n.writing = false → n.record.kind = r.kind → n.record.port = r.port →
      n.record.window = r.window → n.record.access = r.access →
      s.stageRecord r = { s with
        staged := s.staged.dropLast ++ [⟨{ n.record with
          repeats := if n.record.repeats = 255 then 255 else n.record.repeats + 1 }, false⟩] }) ∧
    ((s.staged.getLast?.all fun m => m.writing || !(decide (m.record.kind = r.kind) &&
        decide (m.record.port = r.port) && decide (m.record.window = r.window) &&
        decide (m.record.access = r.access))) = true →
      (s.staged.length < 4 → s.stageRecord r = { s with staged := s.staged ++ [⟨r, false⟩] }) ∧
      (4 ≤ s.staged.length → s.stageRecord r = { s with
        causes := { s.causes with overflow := true }
        statusChanged := s.statusChanged || !s.causes.overflow }))) ∧
  (∀ (s : State) (h : Staged) (rest : List Staged) (g : RingGeometry), s.staged = h :: rest → s.ring = some g →
    ((s.opState = .active ∨ s.opState = .stopping) → s.writingHead = false →
      (s.producer + g.size - s.consumer) % g.size ≠ g.size - 1 →
      s.raiseRingWrite = { s with
        staged := { h with writing := true } :: rest
        ctl := s.ctl ++ [⟨.recordWrite, addBytes g.base (16 * s.producer), 4,
          (recordWords h.record).map fun w => ⟨w, 15⟩, false⟩] }) ∧
    (s.writingHead = true ∨ (s.producer + g.size - s.consumer) % g.size = g.size - 1 ∨
      (s.opState ≠ .active ∧ s.opState ≠ .stopping) → s.raiseRingWrite = s))

/-! ### The Attribute Map, descriptors and formats -/

/-- The attribute of a byte is the most restrictive among the valid ranges that match its page, HOLE before ORDERED
before POSTED, whatever their numbers, and the default where none matches. -/
def Obligations.AttributeIsTheMostRestrictive : Prop :=
  ∀ (m : AttributeMap) (a : Word), ¬ m.names a .fourth →
    (m.names a .hole → m.attrOf a = .hole) ∧
    (¬ m.names a .hole → m.names a .ordered → m.attrOf a = .ordered) ∧
    (¬ m.names a .hole → ¬ m.names a .ordered → m.names a .posted → m.attrOf a = .posted) ∧
    (¬ m.names a .hole → ¬ m.names a .ordered → ¬ m.names a .posted →
      m.attrOf a = if m.defaultPosted then .posted else .ordered)

/-- The five descriptor checks on the four words of a fetched descriptor and its target port, in their order: the first
that fails gives its number, and 0 means that all were passed. -/
def Obligations.DescriptorChecksInOrder : Prop :=
  ∀ (w0 w1 w2 w3 : Word) (e : Engine),
    let detail := (descriptorOf w0 w1 w2 w3).detail e
    let listed := match e with
      | .p1 => w0.getLsbD 5
      | .p2 => w0.getLsbD 6
      | .p3 => w0.getLsbD 7
    let base := (w0.extractLsb' 8 24).toNat * 256
    let size := (w1.extractLsb' 0 21).toNat + 1
    let ends := (w2.extractLsb' 0 16).toNat + (w2.extractLsb' 16 16).toNat
    let initial := (w3.extractLsb' 0 21).toNat
    (w0.getLsbD 0 = false → detail = 1) ∧
    (w0.getLsbD 0 = true → listed = false → detail = 2) ∧
    (w0.getLsbD 0 = true → listed = true → 2 ^ 32 < base + size * 256 → detail = 3) ∧
    (w0.getLsbD 0 = true → listed = true → base + size * 256 ≤ 2 ^ 32 →
      (w0.getLsbD 1 = false → detail = 0) ∧
      (w0.getLsbD 1 = true → size ≤ ends → detail = 4) ∧
      (w0.getLsbD 1 = true → ends < size → size - ends ≤ initial → detail = 5) ∧
      (w0.getLsbD 1 = true → ends < size → initial < size - ends → detail = 0))

/-- The eleven checks of START on the 28 words it reads, in their order: the first that fails gives its number, and 0
means that all were passed. The words are those at offsets 20h to 8Fh: RING_BASE, RING_SIZE_CODE, TABLE_BASE,
TABLE_COUNT, GLOBAL, PORT0 to PORT3, three that are not checked, and the BASE and MASK words of the eight ranges. The
ranges of check 5 are compared without wrapping at 4 GiB (the model's reading, notes/assumptions/29). -/
def Obligations.StartChecksInOrder : Prop :=
  ∀ (ws : List Word) (anc : BitVec 12), ws.length = 28 →
    let w := fun (i : Nat) => ws.getD i 0
    let detail := (configurationOf ws).detail anc
    let block := anc.toNat * 2 ^ 20
    let ring := (w 0).toNat
    let size := ((w 1).extractLsb' 0 4).toNat
    let ringEnd := ring + 16 * (16 * 2 ^ size)
    let table := (w 2).toNat
    let count := ((w 3).extractLsb' 0 9).toNat
    let tableEnd := table + 16 * count
    let attr := fun (i : Nat) => (w (12 + 2 * i)).extractLsb' 1 2
    let valid := fun (i : Nat) => (w (12 + 2 * i)).getLsbD 0
    let hits := fun (i a : Nat) => BitVec.ofNat 20 (a / 4096) &&& (w (13 + 2 * i)).extractLsb' 12 20 =
      (w (12 + 2 * i)).extractLsb' 12 20 &&& (w (13 + 2 * i)).extractLsb' 12 20
    let inZone := fun (a : Nat) => (block ≤ a ∧ a < block + 256) ∨ (table ≤ a ∧ a < tableEnd) ∨ (ring ≤ a ∧ a < ringEnd)
    let high := fun (i : Nat) => (w i).extractLsb' 8 8
    let low := fun (i : Nat) => (w i).extractLsb' 16 8
    let c5 := (block < tableEnd ∧ table < block + 256) ∨ (block < ringEnd ∧ ring < block + 256) ∨
      (table < ringEnd ∧ ring < tableEnd)
    let c7 := ∃ i < 8, valid i = true ∧ attr i = 3
    let c8 := ∃ i < 8, valid i = true ∧ attr i = 2 ∧ ∃ a, inZone a ∧ hits i a
    let c9 := ∃ i ∈ [6, 7, 8], high i ≠ 0 ∧ high i ≤ low i
    let c10 := ∃ i ∈ [5, 6, 7, 8], (w i).extractLsb' 24 8 = 0
    (6 < size → detail = 1) ∧
    (size ≤ 6 → (ring % 256 ≠ 0 → detail = 2) ∧
      (ring % 256 = 0 → (count = 0 ∨ 256 < count → detail = 3) ∧
        (1 ≤ count → count ≤ 256 → (table % 256 ≠ 0 → detail = 4) ∧
          (table % 256 = 0 → (c5 → detail = 5) ∧
            (¬ c5 → (2 ^ 32 < tableEnd ∨ 2 ^ 32 < ringEnd → detail = 6) ∧
              (tableEnd ≤ 2 ^ 32 → ringEnd ≤ 2 ^ 32 → (c7 → detail = 7) ∧
                (¬ c7 → (c8 → detail = 8) ∧
                  (¬ c8 → (c9 → detail = 9) ∧
                    (¬ c9 → (c10 → detail = 10) ∧
                      (¬ c10 → ((w 4).extractLsb' 16 16 = 0 → detail = 11) ∧
                        ((w 4).extractLsb' 16 16 ≠ 0 → detail = 0)))))))))))

/-- A COMMAND word's fields are its code, port, window and argument, each at its bits; a RESULT word, a fault record and
the status word show each of their fields at its bits. The codes of ports, access kinds, fault kinds, attributes,
operating states, port states and outcomes are those of section 12.1. A covered COMMAND word is the command of its code
with the fields that command uses, 00h none, 0Ch and above unknown, and one that is not covered is malformed. The
PRODUCER word, the configuration words that START reads, the settings words, GLOBAL, the attribute ranges and the
descriptor show each of their fields at its bits; a settings word with H 0 gives L 0. -/
def Obligations.WordsShowTheirFields : Prop :=
  (∀ (code : BitVec 6) (p : Port) (w : Index8) (arg : Arg) (c : BitVec 8) (o : CommandOutcome) (detail : Fin 12)
    (r : FaultRecord) (s : State),
    (codeField (commandWordOf code p w arg) = code ∧ portOfCode (portField (commandWordOf code p w arg)) = p ∧
      windowOf (windowField (commandWordOf code p w arg)) = w ∧ argField (commandWordOf code p w arg) = arg) ∧
    ((resultWord c o detail.val).extractLsb' 0 8 = c ∧ (resultWord c o detail.val).extractLsb' 8 8 = outcomeCode o ∧
      ((resultWord c o detail.val).extractLsb' 16 4).toNat = detail.val ∧
      (resultWord c o detail.val).extractLsb' 20 12 = 0) ∧
    (1 ≤ r.beats → r.beats ≤ 16 →
      (recordWord0 r).extractLsb' 0 4 = faultKindCode r.kind ∧ (recordWord0 r).extractLsb' 4 2 = portCode r.port ∧
      (recordWord0 r).getLsbD 6 = r.window.isSome ∧ (recordWord0 r).getLsbD 7 = r.selector.isSome ∧
      (recordWord0 r).getLsbD 8 = r.physical.isSome ∧
      ((recordWord0 r).extractLsb' 9 3).toNat = (r.window.elim 0 fun x => x.val) ∧
      (recordWord0 r).extractLsb' 12 3 = accessCode r.access ∧ (recordWord0 r).getLsbD 15 = false ∧
      ((recordWord0 r).extractLsb' 16 4).toNat + 1 = r.beats ∧ (recordWord0 r).extractLsb' 20 8 = r.repeats ∧
      (recordWord0 r).extractLsb' 28 4 = 0 ∧ (recordWord1 r).extractLsb' 0 16 = r.time ∧
      (recordWord1 r).extractLsb' 16 8 = r.selector.getD 0 ∧ (recordWord1 r).extractLsb' 24 8 = 0 ∧
      recordWords r = [recordWord0 r, recordWord1 r, r.logical, r.physical.getD 0]) ∧
    (s.statusWord.extractLsb' 0 3 = opStateCode s.opState ∧ s.statusWord.getLsbD 3 = s.command.isSome ∧
      s.statusWord.getLsbD 4 = decide (s.producer ≠ s.consumer) ∧ s.statusWord.getLsbD 5 = s.causes.overflow ∧
      s.statusWord.getLsbD 6 = s.causes.done ∧ s.statusWord.getLsbD 7 = s.causes.overrun ∧
      s.statusWord.getLsbD 8 = s.causes.misuse ∧ s.statusWord.getLsbD 9 = s.causes.halt ∧
      s.statusWord.extractLsb' 10 6 = 0 ∧ s.statusWord.extractLsb' 16 2 = portStateCode (s.eng .p1).state ∧
      s.statusWord.extractLsb' 18 2 = portStateCode (s.eng .p2).state ∧
      s.statusWord.extractLsb' 20 2 = portStateCode (s.eng .p3).state ∧ s.statusWord.extractLsb' 22 10 = 0)) ∧
  ([Port.p0, .engine .p1, .engine .p2, .engine .p3].map portCode = [0, 1, 2, 3]) ∧
  ([Access.read, .write, .lockRead, .unlockWrite, .unlock].map accessCode = [0, 1, 2, 3, 4]) ∧
  ([FaultKind.noWindow, .rights, .limit, .split, .zone, .hole, .revoked, .tableError, .memoryError, .deferredWrite,
    .lockSequence, .lockBroken, .storm].map faultKindCode = [1, 2, 3, 4, 5, 6, 7, 8, 9, 10, 11, 12, 13]) ∧
  ([0, 1, 2, 3].map attrOfCode = [.ordered, .posted, .hole, .fourth]) ∧
  ([OpState.boot, .loading, .active, .stopping, .halted].map opStateCode = [0, 1, 2, 3, 4]) ∧
  ([PortState.disabled, .opened, .blocked, .quiet].map portStateCode = [0, 1, 2, 3]) ∧
  ([CommandOutcome.inProgress, .ok, .malformed, .unknownCommand, .wrongState, .badArgument, .notRotating, .lockHeld,
    .readError, .descriptorRefused, .configInvalid].map outcomeCode = [1, 2, 3, 4, 5, 6, 7, 8, 9, 10, 11]) ∧
  (∀ (code : BitVec 6) (p : Port) (w : Index8) (arg : Arg) (l : Lanes) (v : Word),
    let command := fun (n : BitVec 6) => commandOf 15 (commandWordOf n p w arg)
    ([0, 1, 2, 3, 4, 5, 6, 7, 8, 9, 10, 11].map command = [.ignored, .start, .stop, .loadWindow p w arg,
      .clearWindow p w, .rotate p w arg, .invalidate arg, .invalidateAll, .releasePort p, .configurePort p, .reloadMap,
      .drain]) ∧
    (12 ≤ code.toNat → command code = .unknown code) ∧
    (l ≠ 15 → commandOf l v = .malformed)) ∧
  (∀ (n : Nat) (w : Word),
    (n < 1024 → ((producerWord n).extractLsb' 0 10).toNat = n) ∧ (producerWord n).extractLsb' 10 22 = 0 ∧
    settingsOf w = {
      enable := w.getLsbD 0
      block := w.getLsbD 1
      high := w.extractLsb' 8 8
      low := if w.extractLsb' 8 8 = 0 then 0 else w.extractLsb' 16 8
      lockLimit := w.extractLsb' 24 8 } ∧
    defaultPostedOf w = w.getLsbD 0 ∧ intervalOf w = w.extractLsb' 16 16) ∧
  (∀ (ws : List Word), ws.length = 28 →
    let c := configurationOf ws
    let w := fun (j : Nat) => ws.getD j 0
    c.ringBase = w 0 ∧ ringSizeOf c.sizeCode = 16 * 2 ^ ((w 1).extractLsb' 0 4).toNat ∧ c.tableBase = w 2 ∧
    c.tableCount = ((w 3).extractLsb' 0 9).toNat ∧ c.global = w 4 ∧ c.portWords = ⟨w 5, ⟨w 6, w 7, w 8⟩⟩ ∧
    c.rangeWords = ws.drop 12) ∧
  (∀ (ws : List Word) (i : Index8),
    let base := ws.getD (2 * i.val) 0
    (rangesOf ws).get i = {
      valid := base.getLsbD 0
      base := base.extractLsb' 12 20
      mask := (ws.getD (2 * i.val + 1) 0).extractLsb' 12 20
      attr := attrOfCode (base.extractLsb' 1 2) }) ∧
  (∀ (w0 w1 w2 w3 : Word),
    let d := descriptorOf w0 w1 w2 w3
    let size := (w1.extractLsb' 0 21).toNat + 1
    let head := (w2.extractLsb' 0 16).toNat
    let tail := (w2.extractLsb' 16 16).toNat
    let initial := w3.extractLsb' 0 21
    d.rotating = w0.getLsbD 1 ∧ d.initial = initial ∧ d.checked = {
      kind := if w0.getLsbD 1 then .rotating head tail (size - head - tail) initial else .linear
      read := w0.getLsbD 2
      write := w0.getLsbD 3
      lock := w0.getLsbD 4
      base := w0.extractLsb' 8 24 ++ 0#8
      size := size })

/-! ### The arbiter -/

/-- GRANT serves the controller-originated queue first: its oldest request leaves it and is issued whether or not a lock
is held, with the pointer unchanged, a status update with the values that stand at the grant. The answer to a request
that HALT entry cancelled, and to a controller write issued in HALTED, is marked to have no effect. With eight requests
issued, or with no request on the queue and no eligible port candidate, nothing is granted. -/
def Obligations.GrantServesTheControllerFirst : Prop :=
  ∀ (s : State) (r : CtlRequest) (rest : List CtlRequest), s.ready = true →
    (s.issued.length < 8 → s.ctl = r :: rest → exec .grant s = .next { s with
      ctl := rest
      issued := s.issued ++ [⟨decide (r.kind = .recordWrite ∨ r.kind = .statusUpdate ∨ r.kind = .resultWrite),
        r.addr, r.beats,
        if r.kind = .statusUpdate then [⟨s.statusWord, 15⟩, ⟨producerWord s.producer, 15⟩] else r.data,
        .ctl r.kind,
        r.cancelled || decide (s.opState = .halted ∧
          (r.kind = .recordWrite ∨ r.kind = .statusUpdate ∨ r.kind = .resultWrite))⟩] }) ∧
    (8 ≤ s.issued.length → exec .grant s = .next s) ∧
    (s.ctl = [] → s.nextPort = none → exec .grant s = .next s)

/-- The port that is granted is the first after the round-robin pointer that presents an eligible candidate; while a
lock is held it is the owner; where no port is found none presents an eligible candidate. A port's candidate is the
earliest item in its admission order that is not yet issued: an ADMITTED queue entry, the second piece of an entry
whose first has been issued, or a WAITING buffer entry; with no such item it presents none. -/
def Obligations.GrantFollowsTheRoundRobin : Prop :=
  (∀ (s : State) (p : Port) (c : Candidate) (l : Lock),
    (s.nextPort = some (p, c) → s.candidate p = some c ∧ (s.lock = some l → p = l.owner) ∧
      ∀ q ∈ (roundRobinOrder s.roundRobin).takeWhile (fun q => decide (q ≠ p)),
        s.candidate q = none ∨ ∃ k, s.lock = some k ∧ k.owner ≠ q) ∧
    (s.nextPort = none → ∀ q, s.candidate q = none ∨ ∃ k, s.lock = some k ∧ k.owner ≠ q)) ∧
  (∀ (s : State) (p : Port) (c : Candidate),
    (s.candidate p = some c → ∃ n, s.presentsAt p n c ∧ ∀ m d, s.presentsAt p m d → n ≤ m) ∧
    (s.candidate p = none → ∀ m d, ¬ s.presentsAt p m d)) ∧
  (roundRobinOrder .p0 = [.engine .p1, .engine .p2, .engine .p3, .p0] ∧
    roundRobinOrder (.engine .p1) = [.engine .p2, .engine .p3, .p0, .engine .p1] ∧
    roundRobinOrder (.engine .p2) = [.engine .p3, .p0, .engine .p1, .engine .p2] ∧
    roundRobinOrder (.engine .p3) = [.p0, .engine .p1, .engine .p2, .engine .p3])

/-- The grant of a port's queue entry: a READ or ORDERED WRITE is issued and becomes ISSUED; a LOCK_READ that opens a
lock also begins it, with the port's word, the count and the port's limit; an UNLOCK_WRITE ends the lock and is
issued; an UNLOCK ends the lock, issues nothing and is decided DONE, and STOP completes where that makes it due; the
second piece of an ISSUED entry is issued. The grant of a buffer entry: the entry becomes ISSUED, whatever the state
of its port, and its piece is issued as a write with the address, data and lanes it was admitted with. -/
def Obligations.GrantActsByKind : Prop :=
  (∀ (s : State) (p : Port) (x : QEntry) (a : Admitted) (i : SeqInfo) (q : Piece) (f : Option Answer),
    s.ready = true → s.issued.length < 8 → s.ctl = [] → s.nextPort = some (p, .entry x) →
    let moved := fun ph => s.ports.set p { s.unit p with
      queue := updateFirst (QEntry.isAdmittedAt a.place) (fun y => ⟨y.req, ph⟩) (s.queueOf p) }
    let limit := match p with
      | .p0 => s.p0LockLimit
      | .engine e => (s.eng e).settings.lockLimit
    let issues := fun (w : Bool) (z : Piece) =>
      s.issued ++ [(⟨w, z.addr, z.beats, z.data, .piece p a.place, false⟩ : Issued)]
    (x.phase = .admitted a →
      (x.req.kind = .read ∨ x.req.kind = .write ∨ (x.req.kind = .lockRead ∧ a.opensLock = false) →
        exec .grant s = .next { s with
          roundRobin := p
          issued := issues (decide (x.req.kind = .write)) a.first
          ports := moved (.issued a false none) }) ∧
      (x.req.kind = .lockRead → a.opensLock = true → s.seqOf p = .opening i →
        exec .grant s = .next { s with
          roundRobin := p
          issued := issues false a.first
          ports := moved (.issued a false none)
          lock := some ⟨p, i.word, s.now, limit⟩
          seqs := s.seqs.set p (.holding i) }) ∧
      (x.req.kind = .lockRead → a.opensLock = true → s.seqOf p = .closing i →
        exec .grant s = .next { s with
          roundRobin := p
          issued := issues false a.first
          ports := moved (.issued a false none)
          lock := some ⟨p, i.word, s.now, limit⟩ }) ∧
      (x.req.kind = .unlockWrite →
        exec .grant s = .next { s with
          roundRobin := p
          issued := issues true a.first
          ports := moved (.issued a false none)
          lock := none
          seqs := s.seqs.set p (.free false) }) ∧
      (x.req.kind = .unlock →
        exec .grant s = .next ({ s with
          roundRobin := p
          ports := s.ports.set p ({ s.unit p with
            queue := updateFirst (QEntry.isAdmittedAt a.place) (fun y => ⟨y.req, .decided (.done [])⟩) (s.queueOf p) } :
              PortUnit).answer
          lock := none
          seqs := s.seqs.set p (.free false) } : State).stopIfDue)) ∧
    (x.phase = .issued a false f → a.second = some q →
      exec .grant s = .next { s with
        roundRobin := p
        issued := issues x.req.kind.isWrite q
        ports := s.ports.set p { s.unit p with
          queue := updateFirst (QEntry.isIssuedAt a.place) (fun y => ⟨y.req, .issued a true f⟩) (s.queueOf p) } })) ∧
  (∀ (s : State) (p : Port) (i : Index8) (v : Posted), s.ready = true → s.issued.length < 8 → s.ctl = [] →
    s.nextPort = some (p, .buffered i v) →
    exec .grant s = .next { s with
      roundRobin := p
      buffer := s.buffer.set i (some { v with issued := true })
      issued := s.issued ++ [⟨true, v.piece.addr, v.piece.beats, v.piece.data, .posted i, false⟩] })

/-! ### Memory answers -/

/-- An entry of one piece is decided by its answer: OK gives DONE with the words read, and nothing else changes but
the responses that fall due, and the completion of STOP where the answer makes it due; ERROR gives MEMORY_ERROR and
reports that fault with the piece's address and the window and selector fixed at admission. (A P0 write answered OK is
handed over first: another statement.) An answer acts on the ISSUED entry of the port at the answered place. -/
def Obligations.OnePieceAnswerDecidesTheEntry : Prop :=
  (∀ (s : State) (p : Port) (n : Nat) (ph : Phase), s.advanceIssued p n ph = { s with
    ports := s.ports.set p { s.unit p with
      queue := updateFirst (QEntry.isIssuedAt n) (fun y => ⟨y.req, ph⟩) (s.queueOf p) } }) ∧
  (∀ (s : State) (i : Issued) (rest : List Issued) (p : Port) (x : QEntry) (a : Admitted) (g : Bool)
    (f : Option Answer) (d : List Word), s.ready = true → s.issued = i :: rest →
    i.owner = .piece p a.place → (s.queueOf p).find? (QEntry.isIssuedAt a.place) = some x →
    x.phase = .issued a g f → a.second = none →
    (d.length = i.dataLength → (p = .p0 → x.req.kind.isWrite = false) →
      exec (.pieceAnswer (.ok d)) s = .next ({ s with
        issued := rest
        ports := s.ports.set p ({ s.unit p with
          queue := updateFirst (QEntry.isIssuedAt a.place) (fun y => ⟨y.req, .decided (.done d)⟩) (s.queueOf p) } :
            PortUnit).answer } : State).stopIfDue) ∧
    (exec (.pieceAnswer .error) s = .next ((({ s with issued := rest } : State).advanceIssued p a.place
      (.decided .memoryError)).report
        (match p with
          | .p0 => ⟨.memoryError, .p0, none, x.req.kind, x.req.beats, 1, x.req.addr, some x.req.addr, none, s.now⟩
          | .engine e => ⟨.memoryError, .engine e, a.via.map Via.window, x.req.kind, x.req.beats, 1, x.req.addr,
              some a.first.addr, a.via.map Via.selector, s.now⟩)).settle))

/-- An entry of two pieces stays ISSUED at its first answer, whatever that is, and is decided at its second: both OK
give one DONE with the words in beat order; an ERROR gives MEMORY_ERROR and one report that names the first piece
answered ERROR. STOP completes where the second answer makes it due. -/
def Obligations.TwoPieceAnswersAreCombined : Prop :=
  ∀ (s : State) (i : Issued) (rest : List Issued) (e : Engine) (x : QEntry) (a : Admitted) (z : Piece) (g : Bool)
    (d d' : List Word) (ans : Answer), s.ready = true → s.issued = i :: rest →
    i.owner = .piece (.engine e) a.place →
    (s.queueOf (.engine e)).find? (QEntry.isIssuedAt a.place) = some x → a.second = some z →
    let fails := fun (at_ : Word) => ((({ s with issued := rest } : State).advanceIssued (.engine e) a.place
      (.decided .memoryError)).report ⟨.memoryError, .engine e, a.via.map Via.window, x.req.kind, x.req.beats, 1,
        x.req.addr, some at_, a.via.map Via.selector, s.now⟩).settle
    (x.phase = .issued a g none → answerFits ans i = true → exec (.pieceAnswer ans) s = .next { s with
      issued := rest
      ports := s.ports.set (.engine e) { s.unit (.engine e) with
        queue := updateFirst (QEntry.isIssuedAt a.place) (fun y => ⟨y.req, .issued a g (some ans)⟩)
          (s.queueOf (.engine e)) } }) ∧
    (x.phase = .issued a g (some (.ok d)) → d'.length = i.dataLength → exec (.pieceAnswer (.ok d')) s = .next ({ s with
      issued := rest
      ports := s.ports.set (.engine e) ({ s.unit (.engine e) with
        queue := updateFirst (QEntry.isIssuedAt a.place) (fun y => ⟨y.req, .decided (.done (d ++ d'))⟩)
          (s.queueOf (.engine e)) } : PortUnit).answer } : State).stopIfDue) ∧
    (x.phase = .issued a g (some (.ok d)) → exec (.pieceAnswer .error) s = .next (fails z.addr)) ∧
    (x.phase = .issued a g (some .error) → answerFits ans i = true →
      exec (.pieceAnswer ans) s = .next (fails a.first.addr))

/-- A P0 write answered OK is handed over before its DONE is decided. Of a write that touches no descriptor the live
words it holds are acted on in ascending address order, COMMAND, CONSUMER, ENABLE, ACKNOWLEDGE, each with the state as
the words before it left it; a burst of the block's first seven words holds all four. A write of no live word marks
the windows of the selectors it touches, and a selector is touched exactly when a beat's word lies in its descriptor.
Of a write that does both, one hand-over follows the other in an order the model leaves free (notes/assumptions/10).
Each row of a live word acts as that word of a hand-over does, with what ends the event (notes/assumptions/4). -/
def Obligations.AnsweredSupervisorWritesAreHandedOver : Prop :=
  (∀ (s : State) (p : Port) (w : Index8) (arg : Arg) (l : Lanes) (v : Word), s.ready = true →
    (∀ c ∈ [(Instr.start, (1 : BitVec 6)), (.stop, 2), (.loadWindow p w arg, 3), (.clearWindow p w, 4),
        (.rotate p w arg, 5), (.invalidate arg, 6), (.invalidateAll, 7), (.releasePort p, 8), (.configurePort p, 9),
        (.reloadMap, 10), (.drain, 11)],
      exec c.1 s = .next (s.commandWord 15 (commandWordOf c.2 p w arg)).settle) ∧
    (∀ c ∈ [Instr.unknownCommand v, .ignoredCommand v], exec c s = .next (s.commandWord 15 v).settle) ∧
    (∀ c ∈ [Instr.malformed l v, .commandOverrun l v], exec c s = .next (s.commandWord l v).settle) ∧
    exec (.consumer l v) s = .next (s.consumerWord l v).settle ∧
    exec (.enable l v) s = .next (s.enableWord l v).settle ∧
    exec (.acknowledge l v) s = .next (s.acknowledgeWord l v).settle) ∧
  (∀ (s : State) (i : Issued) (rest : List Issued) (x : QEntry) (a : Admitted) (g : Bool) (f : Option Answer)
    (at_ : Word) (data : List Beat) (b : TableGeometry) (k : Nat) (b0 b1 b2 b3 b4 b5 b6 : Beat),
    let anchor := anchorOf s.anc
    let word := fun (o : Nat) (act : State → Lanes → Word → State) (z : State) =>
      match (addressed at_ data).find? (fun y => decide (y.1 = addBytes anchor o)) with
      | some y => act z y.2.lanes y.2.data
      | none => z
    let live := fun (z : State) => word 0x18 State.acknowledgeWord (word 0x14 State.enableWord
      (word 0x10 State.consumerWord (word 0x00 State.commandWord z)))
    let snoop := fun (z : State) => (s.touched at_ data.length).foldl State.markSelector z
    (s.ready = true → s.issued = i :: rest → i.write = true → i.owner = .piece .p0 a.place →
      (s.queueOf .p0).find? (QEntry.isIssuedAt a.place) = some x → x.phase = .issued a g f → a.second = none →
      x.req.kind.isWrite = true →
      exec (.pieceAnswer (.ok [])) s = .next
        ((({ s with issued := rest } : State).handOver a.first.addr a.first.data).advanceIssued .p0 a.place
          (.decided (.done []))).settle) ∧
    (s.touched at_ data.length = [] → s.handOver at_ data = live s) ∧
    (s.touched anchor 7 = [] → s.handOver anchor [b0, b1, b2, b3, b4, b5, b6] =
      (((s.commandWord b0.lanes b0.data).consumerWord b4.lanes b4.data).enableWord b5.lanes b5.data).acknowledgeWord
        b6.lanes b6.data) ∧
    ((∀ o ∈ [0x00, 0x10, 0x14, 0x18], ∀ y ∈ addressed at_ data, y.1 ≠ addBytes anchor o) →
      s.handOver at_ data = snoop s) ∧
    (∃ n, s.handOver at_ data = snoop (live { s with freeCounter := n }) ∨
      s.handOver at_ data = live (snoop { s with freeCounter := n })) ∧
    (s.table = none → s.touched at_ data.length = []) ∧
    (s.table = some b → s.touched at_ data.length = touchedSelectors b at_ data.length) ∧
    (b.base.toNat + 16 * b.count ≤ 2 ^ 32 →
      (k ∈ touchedSelectors b at_ data.length ↔ k < b.count ∧ ∃ y ∈ beatAddrs at_ data.length,
        b.base.toNat + 16 * k ≤ y.toNat ∧ y.toNat < b.base.toNat + 16 * k + 16)))

/-- One mark on every window that holds a selector, of all three engine ports: VALID becomes STALE and keeps what it
holds, a FETCHING window's refetch flag is set, STALE and EMPTY stay; every other window and everything else stays. -/
def Obligations.MarksReachEveryHolder : Prop :=
  ∀ (s : State) (k : Selector) (e : Engine) (w : Index8) (j : Selector) (d : Checked) (u : Purpose) (f : Bool),
    let t := s.markSelector k.toNat
    let v := s.window e w
    (v.state = .valid k d → t.window e w = ⟨.stale k d, v.rotation⟩) ∧
    (v.state = .fetching u k f → t.window e w = ⟨.fetching u k true, v.rotation⟩) ∧
    (v.state = .stale k d → t.window e w = v) ∧ (v.state = .empty → t.window e w = v) ∧
    (v.state.selector? = some j → j ≠ k → t.window e w = v) ∧
    t = { s with engines := t.engines } ∧ (t.eng e) = { s.eng e with windows := (t.eng e).windows }

/-- A posted entry answered OK becomes free, which ends every hold for buffer space (the model follows R90 here,
notes/assumptions/13), and nothing else changes but that STOP completes where the answer makes it due; answered ERROR it
also reports DEFERRED_WRITE with what the entry holds. With DRAIN in progress the last watched entry completes it,
whether answered OK or ERROR: the result OK, behind what the report raised. -/
def Obligations.PostedAnswersFreeTheEntry : Prop :=
  ∀ (s : State) (i : Issued) (rest : List Issued) (n : Index8) (v : Posted), s.ready = true →
    s.issued = i :: rest → i.owner = .posted n → i.write = true → s.buffer.get n = some v →
    let freed : State := { s with
      issued := rest
      buffer := s.buffer.set n none
      ports := s.ports.map fun u => if u.hold = some .bufferSpace then { u with hold := none } else u }
    let reported := (freed.report (match v.port with
      | .p0 => ⟨.deferredWrite, .p0, none, .write, v.piece.beats, 1, v.logical, some v.logical, none, s.now⟩
      | .engine e => ⟨.deferredWrite, .engine e, v.via.map Via.window, .write, v.piece.beats, 1, v.logical,
          some v.piece.addr, v.via.map Via.selector, s.now⟩)).settle
    (s.command ≠ some .drain ∨ freed.watching = true →
      exec (.postedEntryAnswer .ok) s = .next freed.stopIfDue ∧
      exec (.postedEntryAnswer .error) s = .next reported) ∧
    (s.command = some .drain → freed.watching = false → s.holdsStand = true → s.commandAgrees = true →
      exec (.postedEntryAnswer .ok) s = .next (freed.afterResult 11 .ok 0 true) ∧
      exec (.postedEntryAnswer .error) s = .next (reported.afterResult 11 .ok 0 true))

/-- An answer row stops where the oldest issued request is not of its kind, or none is issued, and an answer OK with
another number of words than a read asks for, or with any for a write, stops too: memory never gives these, and that
the model stops there is its own reading (notes/assumptions/7). The answer
to a CANCELLED fetch, OK or ERROR, leaves the list and does nothing else. The answer to a CURRENT fetch
of a window whose refetch flag is set is discarded, the flag is cleared, and a new fetch of the same selector and
purpose is raised. -/
def Obligations.FetchAnswersAreDiscarded : Prop :=
  (∀ (s : State) (a : Answer) (k : Ack) (i : Issued) (rest : List Issued) (d : List Word), s.inReset = false →
    let byKind := [(Instr.descriptorFetchAnswer, CtlKind.fetch), (.startReadAnswer, .startRead),
      (.reloadMapReadAnswer, .reloadRead), (.configurePortReadAnswer, .portRead)]
    let acks := [(Instr.ringWriteAnswer k, CtlKind.recordWrite), (.statusUpdateAnswer k, .statusUpdate),
      (.resultWriteAnswer k, .resultWrite)]
    (s.issued = [] → ∀ c ∈ [Instr.pieceAnswer a, .postedEntryAnswer k] ++ byKind.map (fun x => x.1 a) ++
      acks.map Prod.fst, exec c s = .fault .answerWithoutRequest) ∧
    (s.issued = i :: rest →
      ((∀ p n, i.owner ≠ .piece p n) → exec (.pieceAnswer a) s = .fault .answerWithoutRequest) ∧
      ((∀ n, i.owner ≠ .posted n) → exec (.postedEntryAnswer k) s = .fault .answerWithoutRequest) ∧
      (∀ c ∈ byKind, i.owner ≠ .ctl c.2 → exec (c.1 a) s = .fault .answerWithoutRequest) ∧
      (∀ c ∈ acks, i.owner ≠ .ctl c.2 → exec c.1 s = .fault .answerWithoutRequest) ∧
      (d.length ≠ (if i.write then 0 else i.beats) →
        ((∃ p n, i.owner = .piece p n) → exec (.pieceAnswer (.ok d)) s = .fault .answerDataLength) ∧
        (∀ c ∈ byKind, i.owner = .ctl c.2 → exec (c.1 (.ok d)) s = .fault .answerDataLength)))) ∧
  (∀ (s : State) (i : Issued) (rest : List Issued) (f : Fetch) (fs : List Fetch) (ans : Answer) (u : Purpose)
    (k : Selector) (g : TableGeometry), s.ready = true → s.issued = i :: rest → i.owner = .ctl .fetch →
    answerFits ans i = true → s.fetches = f :: fs →
    (f.current = false → exec (.descriptorFetchAnswer ans) s = .next { s with issued := rest, fetches := fs }) ∧
    (f.current = true → (s.window f.engine f.window).state = .fetching u k true → s.table = some g →
      exec (.descriptorFetchAnswer ans) s = .next { s with
        issued := rest
        fetches := fs ++ [⟨f.engine, f.window, k, u, true⟩]
        engines := s.engines.set f.engine { s.eng f.engine with
          windows := (s.eng f.engine).windows.set f.window
            { s.window f.engine f.window with state := .fetching u k false } }
        ctl := s.ctl ++ [fetchRequest g k.toNat] }))

/-- The fetch of a LOAD_WINDOW completes: checks passed, the window is VALID with INITIAL_ROTATION (0 for LINEAR) and
the outcome is OK; checks failed, it is EMPTY and the outcome is DESCRIPTOR_REFUSED with the detail; answered ERROR,
it is EMPTY and the outcome is READ_ERROR. The hold on the window ends, and no fault is reported. -/
def Obligations.LoadsComplete : Prop :=
  ∀ (s : State) (i : Issued) (rest : List Issued) (f : Fetch) (fs : List Fetch) (k : Selector) (a b c d : Word),
    s.ready = true → s.holdsStand = true → s.commandAgrees = true → s.issued = i :: rest →
    i.owner = .ctl .fetch → i.dataLength = 4 → s.fetches = f :: fs → f.current = true →
    (s.window f.engine f.window).state = .fetching .load k false →
    let desc := descriptorOf a b c d
    let ended := fun (v : Window) => ({ s with
      issued := rest
      fetches := fs
      engines := s.engines.set f.engine { s.eng f.engine with windows := (s.eng f.engine).windows.set f.window v }
      ports := s.ports.set (.engine f.engine) { s.unit (.engine f.engine) with
        hold := if s.holdOf (.engine f.engine) = some (.window f.window) then none
          else s.holdOf (.engine f.engine) } } : State)
    (desc.detail f.engine = 0 → exec (.descriptorFetchAnswer (.ok [a, b, c, d])) s =
      .next ((ended ⟨.valid k desc.checked, if desc.rotating then desc.initial else 0⟩).afterResult 3 .ok 0 true)) ∧
    (desc.detail f.engine ≠ 0 → exec (.descriptorFetchAnswer (.ok [a, b, c, d])) s =
      .next ((ended ⟨.empty, 0⟩).afterResult 3 .descriptorRefused (desc.detail f.engine) true)) ∧
    (exec (.descriptorFetchAnswer .error) s = .next ((ended ⟨.empty, 0⟩).afterResult 3 .readError 0 true))

/-- A refetch completes: checks passed, the window is VALID with its rotation kept while that is below the new M, else
INITIAL_ROTATION, and 0 for LINEAR; the hold ends and no result is written. Failed, the window is EMPTY, and a request
held on it is refused REVOKED, or TABLE_ERROR where the answer was ERROR, and reported; with none held nothing is
reported. -/
def Obligations.RefetchesComplete : Prop :=
  ∀ (s : State) (i : Issued) (rest : List Issued) (f : Fetch) (fs : List Fetch) (k : Selector) (a b c d : Word)
    (x : QEntry), s.ready = true → s.issued = i :: rest → i.owner = .ctl .fetch → i.dataLength = 4 →
    s.fetches = f :: fs → f.current = true → (s.window f.engine f.window).state = .fetching .refetch k false →
    let p := Port.engine f.engine
    let desc := descriptorOf a b c d
    let r := (s.window f.engine f.window).rotation
    let kept := fun (v : Window) => ({ s with
      issued := rest
      fetches := fs
      engines := s.engines.set f.engine { s.eng f.engine with
        windows := (s.eng f.engine).windows.set f.window v } } : State)
    let refuses := fun (y : FaultKind) => (((kept ⟨.empty, 0⟩).decideWaiting p (.refused (.fault y))).report
      ⟨y, p, some f.window, x.req.kind, x.req.beats, 1, x.req.addr, none, some k, s.now⟩).settle
    (desc.detail f.engine = 0 → exec (.descriptorFetchAnswer (.ok [a, b, c, d])) s = .next
      { kept ⟨.valid k desc.checked, if desc.rotating then (if r.toNat < desc.middle then r else desc.initial) else 0⟩
        with ports := s.ports.set p { s.unit p with
          hold := if s.holdOf p = some (.window f.window) then none else s.holdOf p } }) ∧
    (s.holdOf p ≠ some (.window f.window) →
      (desc.detail f.engine ≠ 0 →
        exec (.descriptorFetchAnswer (.ok [a, b, c, d])) s = .next (kept ⟨.empty, 0⟩)) ∧
      exec (.descriptorFetchAnswer .error) s = .next (kept ⟨.empty, 0⟩)) ∧
    (s.holdOf p = some (.window f.window) → oldestWaiting (s.queueOf p) = some x →
      (desc.detail f.engine ≠ 0 →
        exec (.descriptorFetchAnswer (.ok [a, b, c, d])) s = .next (refuses .revoked)) ∧
      exec (.descriptorFetchAnswer .error) s = .next (refuses .tableError))

/-- START waits for its two reads: the first answer is kept, and the answer to a read that HALT entry cancelled is
discarded. START fails when a read is answered ERROR, with READ_ERROR, or when a check fails, with CONFIG_INVALID and
the check's number: the operating state returns to the one START was taken in, everything in force is kept, the HALT
cause keeps its value, and the engine requests held in LOADING are refused NOT_ACTIVE back in BOOT. Back in HALTED
every WAITING engine request is refused HALTED (for those not yet held, the model's reading, notes/assumptions/16). -/
def Obligations.StartWaitsAndFails : Prop :=
  (∀ (s : State) (i : Issued) (rest : List Issued) (ans : Answer) (prior : OpState), s.ready = true →
    s.issued = i :: rest → i.owner = .ctl .startRead → answerFits ans i = true →
    (i.void = true → exec (.startReadAnswer ans) s = .next { s with issued := rest }) ∧
    (i.void = false → s.command = some (.start prior none) → exec (.startReadAnswer ans) s =
      .next { s with issued := rest, command := some (.start prior (some ans)) })) ∧
  (∀ (s : State) (i : Issued) (rest : List Issued) (x y : Answer) (prior : OpState) (d d' : List Word), s.ready = true →
    s.commandAgrees = true → s.issued = i :: rest → i.owner = .ctl .startRead → i.void = false →
    answerFits y i = true → s.command = some (.start prior (some x)) →
    let failed := fun (o : CommandOutcome) (n : Nat) => ({ s with
      issued := rest
      opState := prior
      ports := ⟨{ s.unit .p0 with hold := none }, s.ports.engines.map fun u =>
        if prior = .halted then u.refuseAll QEntry.isWaiting .halted
        else if u.hold = some .loading then u.respond (.refused .notActive) else { u with hold := none }⟩ } :
          State).afterResult 1 o n true
    (x = .error ∨ y = .error → exec (.startReadAnswer y) s = .next (failed .readError 0)) ∧
    (x = .ok d → y = .ok d' → (configurationOf (d ++ d')).detail s.anc ≠ 0 →
      exec (.startReadAnswer y) s =
        .next (failed .configInvalid ((configurationOf (d ++ d')).detail s.anc))))

/-- START succeeds when both reads are answered OK and every check passes: in one event the configuration read comes
into force, the windows are emptied, each engine port is OPEN or DISABLED by its enable with counter 0, the indices
become 0, the timer starts, HALT is cleared, every hold ends, ACTIVE is entered, and the result OK and a status update
are raised in that order. The lock, the sequence records, the posted writes and the enables stay. -/
def Obligations.StartSucceeds : Prop :=
  ∀ (s : State) (i : Issued) (rest : List Issued) (d d' : List Word) (prior : OpState), s.ready = true →
    s.commandAgrees = true → s.issued = i :: rest → i.owner = .ctl .startRead → i.void = false →
    d'.length = i.dataLength → s.command = some (.start prior (some (.ok d))) →
    (configurationOf (d ++ d')).detail s.anc = 0 →
    let c := configurationOf (d ++ d')
    let started := fun (w : Word) => (⟨if (settingsOf w).enable then .opened else .disabled, settingsOf w, 0,
      eightOf Window.reset⟩ : EngineUnit)
    Completes (.startReadAnswer (.ok d')) s fun t => t = { s with
      issued := rest
      opState := .active
      command := none
      ring := some ⟨c.ringBase, ringSizeOf c.sizeCode⟩
      table := some ⟨c.tableBase, c.tableCount⟩
      map := ⟨rangesOf c.rangeWords, defaultPostedOf c.global⟩
      p0LockLimit := (settingsOf c.portWords.p0).lockLimit
      engines := c.portWords.engines.map started
      fetches := s.fetchesCancelled
      ports := s.portsUnheld
      producer := 0
      consumer := 0
      interval := intervalOf c.global
      nextExpiry := some (s.now + intervalOf c.global)
      causes := { s.causes with halt := false, done := true }
      irqAsserted := t.irqLevel
      ctl := s.ctlUnwaiting ++ [s.resultRequest 1 .ok 0, s.statusRequest] }

/-- RELOAD_MAP keeps its first answer, discards the answer to a cancelled read, and ends at its second: READ_ERROR where
a read was answered ERROR; CONFIG_INVALID 7 where a valid range carries the fourth encoding, else 8 where a valid HOLE
range matches a page of the zone in force; otherwise OK, with the new ranges and default in force. Whatever the outcome,
the hold of every port ends, whatever its cause, so that each held request is admitted afresh. -/
def Obligations.ReloadMapEnds : Prop :=
  ∀ (s : State) (i : Issued) (rest : List Issued) (x y : Answer) (w : Word) (d d' : List Word), s.ready = true →
    s.issued = i :: rest → i.owner = .ctl .reloadRead → answerFits y i = true →
    let ended := fun (m : AttributeMap) (o : CommandOutcome) (n : Nat) => ({ s with
      issued := rest
      map := m
      ports := s.portsUnheld } : State).afterResult 10 o n true
    (i.void = true → exec (.reloadMapReadAnswer y) s = .next { s with issued := rest }) ∧
    (i.void = false → s.command = some (.reloadMap none) → exec (.reloadMapReadAnswer y) s =
      .next { s with issued := rest, command := some (.reloadMap (some y)) }) ∧
    (i.void = false → s.commandAgrees = true → s.command = some (.reloadMap (some x)) →
      (x = .error ∨ y = .error → exec (.reloadMapReadAnswer y) s = .next (ended s.map .readError 0)) ∧
      (x = .ok (w :: d) → y = .ok d' →
        (fourthInvalid (rangesOf d') = true →
          exec (.reloadMapReadAnswer y) s = .next (ended s.map .configInvalid 7)) ∧
        (fourthInvalid (rangesOf d') = false → holeInvalid (rangesOf d') s.zone = true →
          exec (.reloadMapReadAnswer y) s = .next (ended s.map .configInvalid 8)) ∧
        (fourthInvalid (rangesOf d') = false → holeInvalid (rangesOf d') s.zone = false →
          exec (.reloadMapReadAnswer y) s = .next (ended ⟨rangesOf d', w.getLsbD 0⟩ .ok 0))))

/-- CONFIGURE_PORT ends at the answer to its read: READ_ERROR; CONFIG_INVALID 9 for an engine port with H not 0 and L
equal to or more than H, else 10 where the lock limit is 0; otherwise OK with the word's settings in force (the lock
limit alone for P0) and the port state of an engine port by its enable, its counter kept. Its hold ends, as does any
hold of a port whose state changes. The answer to a read that HALT entry cancelled is discarded. -/
def Obligations.ConfigurePortEnds : Prop :=
  (∀ (s : State) (i : Issued) (rest : List Issued) (ans : Answer), s.ready = true → s.issued = i :: rest →
    i.owner = .ctl .portRead → i.void = true → answerFits ans i = true →
    exec (.configurePortReadAnswer ans) s = .next { s with issued := rest }) ∧
  (∀ (s : State) (i : Issued) (rest : List Issued) (p : Port) (e : Engine) (w : Word), s.ready = true →
    s.holdsStand = true → s.commandAgrees = true → s.issued = i :: rest → i.owner = .ctl .portRead →
    i.void = false → i.dataLength = 1 → s.command = some (.configurePort p) →
    let ended := fun (u : PerPort PortUnit) (o : CommandOutcome) (n : Nat) =>
      (({ s with issued := rest, ports := u } : State).afterResult 9 o n true)
    let unheld := s.ports.map fun u =>
      if u.hold = some .configurePort ∨ u.hold = some .configureLapsed then { u with hold := none } else u
    let next := if (settingsOf w).enable = false then .disabled
      else if (s.eng e).state = .disabled then .opened else (s.eng e).state
    (exec (.configurePortReadAnswer .error) s = .next (ended unheld .readError 0)) ∧
    (p = .p0 → limitInvalid w = true →
      exec (.configurePortReadAnswer (.ok [w])) s = .next (ended unheld .configInvalid 10)) ∧
    (p = .p0 → limitInvalid w = false → exec (.configurePortReadAnswer (.ok [w])) s =
      .next { ended unheld .ok 0 with p0LockLimit := w.extractLsb' 24 8 }) ∧
    (p = .engine e → marksInvalid w = true →
      exec (.configurePortReadAnswer (.ok [w])) s = .next (ended unheld .configInvalid 9)) ∧
    (p = .engine e → marksInvalid w = false → limitInvalid w = true →
      exec (.configurePortReadAnswer (.ok [w])) s = .next (ended unheld .configInvalid 10)) ∧
    (p = .engine e → marksInvalid w = false → limitInvalid w = false →
      exec (.configurePortReadAnswer (.ok [w])) s = .next
        { ended (if next = (s.eng e).state then unheld
            else unheld.set (.engine e) { s.unit (.engine e) with hold := none }) .ok 0 with
          engines := s.engines.set e { s.eng e with settings := settingsOf w, state := next } }))

/-- A ring write answered OK in ACTIVE or STOPPING removes the head record and advances the producer by one modulo the
ring's size; the next record's ring write is raised where one is staged and the ring is not full, and a status update
behind it where reporting is on and none waits; IRQ_N follows QUEUE, STOP completes where it is due, and everything else
stays. The answers to controller writes: OK to a status update or a result write changes nothing but the issued list. An
answer marked to have no effect (an orphaned ring write; an ERROR to a write issued in HALTED or before the most recent
HALT entry) is discarded. Any other ERROR enters HALTED. -/
def Obligations.ControllerWriteAnswers : Prop :=
  (∀ (s : State) (i : Issued) (rest : List Issued) (g : RingGeometry) (h n : Staged) (tl more : List Staged),
    s.ready = true → s.opState = .active ∨ s.opState = .stopping → s.issued = i :: rest →
    i.owner = .ctl .recordWrite → i.void = false → i.write = true → s.ring = some g → 1 < g.size →
    s.producer < g.size → s.staged = h :: tl →
    let p := (s.producer + 1) % g.size
    let full := (p + g.size - s.consumer) % g.size = g.size - 1
    let moved := fun (l : List Staged) (raised : List CtlRequest) => ({ s with
      issued := rest
      producer := p
      staged := l
      ctl := s.ctl ++ raised ++ (if s.reporting && !s.statusWaiting then [s.statusRequest] else [])
      irqAsserted := ({ s with producer := p } : State).irqLevel } : State).stopIfDue
    (tl = [] ∨ full ∨ tl.any Staged.writing = true → exec (.ringWriteAnswer .ok) s = .next (moved tl [])) ∧
    (tl = n :: more → tl.any Staged.writing = false → ¬ full → exec (.ringWriteAnswer .ok) s = .next
      (moved (⟨n.record, true⟩ :: more) [⟨.recordWrite, addBytes g.base (16 * p), 4,
        (recordWords n.record).map fun w => ⟨w, 15⟩, false⟩]))) ∧
  (∀ (s : State) (i : Issued) (rest : List Issued) (ack : Ack), s.ready = true → s.issued = i :: rest →
    i.write = true →
    let gone : State := { s with issued := rest }
    (i.owner = .ctl .recordWrite → i.void = true → exec (.ringWriteAnswer ack) s = .next gone) ∧
    (i.owner = .ctl .statusUpdate → ack = .ok ∨ i.void = true → exec (.statusUpdateAnswer ack) s = .next gone) ∧
    (i.owner = .ctl .resultWrite → ack = .ok ∨ i.void = true → exec (.resultWriteAnswer ack) s = .next gone) ∧
    (i.void = false →
      (i.owner = .ctl .recordWrite → exec (.ringWriteAnswer .error) s = .next gone.haltEntry.settle) ∧
      (i.owner = .ctl .statusUpdate → exec (.statusUpdateAnswer .error) s = .next gone.haltEntry.settle) ∧
      (i.owner = .ctl .resultWrite → exec (.resultWriteAnswer .error) s = .next gone.haltEntry.settle)))

/-- HALT entry, with what ends its event: HALTED with the HALT cause set and IRQ_N asserted; the staging FIFO
discarded, OVERFLOW set where it held a record; the windows emptied and their fetches cancelled; WAITING and ADMITTED
engine entries refused HALTED and every hold ended; drain marks clear; the timer stopped; no command in progress. On
the controller-originated queue the ring write is withdrawn, configuration reads are cancelled, every other request
stays, and a status update stands at the tail where reporting is on and none waits. The answers of the controller
writes and configuration reads already issued will have no effect; everything else issued stays. There is no lock;
every engine port is FREE, LOST kept, and set in a former owner; P0 as owner is FREE with LOST set, or in CLOSING FREE
with LOST clear and its admitted closing request refused LOCK_LOST; P0 not owner keeps its record. The configuration,
the port states and settings, the indices and the posted writes stay. -/
def Obligations.HaltEntryEffects : Prop :=
  ∀ (s : State), s.settled = true →
    let owns := fun (p : Port) => s.lock.any fun l => decide (l.owner = p)
    let closes := fun (q : Sequence) => match q with
      | .closing _ => true
      | .free _ | .opening _ | .holding _ => false
    let lost := fun (q : Sequence) => match q with
      | .free b => b
      | .opening _ | .holding _ | .closing _ => false
    let freed := fun (e : Engine) => Sequence.free (owns (.engine e) || lost (s.seqOf (.engine e)))
    s.haltEntry.settle = { s with
      ports := ⟨({ s.unit .p0 with
          queue := if owns .p0 && closes (s.seqOf .p0)
            then updateFirst (fun z => z.isAdmitted && decide (z.req.kind = .unlockWrite ∨ z.req.kind = .unlock))
              (fun z => ⟨z.req, .decided (.refused .lockLost)⟩)
              (s.queueOf .p0)
            else s.queueOf .p0
          hold := none } : PortUnit).answer,
        s.ports.engines.map fun u => u.refuseAll (fun z => z.isWaiting || z.isAdmitted) .halted⟩
      engines := s.enginesEmptied
      fetches := s.fetchesCancelled
      buffer := s.buffer.map fun o => o.map fun v => { v with mark := false }
      issued := s.issued.map fun i => match i.owner with
        | .ctl k => if k = .fetch then i else { i with void := true }
        | .piece _ _ | .posted _ => i
      ctl := ((s.ctl.filter fun r => decide (r.kind ≠ .recordWrite)).map fun r =>
          if r.kind = .startRead ∨ r.kind = .reloadRead ∨ r.kind = .portRead then { r with cancelled := true } else r) ++
        (if s.reporting && !s.statusWaiting then [s.statusRequest] else [])
      lock := none
      seqs := ⟨if owns .p0 then .free (!closes (s.seqOf .p0)) else s.seqOf .p0, ⟨freed .p1, freed .p2, freed .p3⟩⟩
      staged := []
      nextExpiry := none
      opState := .halted
      command := none
      causes := { s.causes with halt := true, overflow := s.causes.overflow || !s.staged.isEmpty }
      irqAsserted := true }

/-! ### Expiries -/

/-- LOCK_TIMER_EXPIRY at the count start plus limit ends the lock. An owner in HOLDING becomes FREE with LOST set; in
CLOSING its admitted closing request is refused LOCK_LOST and LOST is clear. LOCK_BROKEN is reported in ACTIVE and
STOPPING with the LOCK_READ's fields; in BOOT, LOADING and HALTED no report is made. Where no expiry is due nothing
happens (the model's reading, notes/assumptions/6). -/
def Obligations.LockTimerExpires : Prop :=
  ∀ (s : State) (l : Lock) (i : SeqInfo), s.ready = true →
    (s.lockDue = false → exec .lockTimerExpiry s = .next s) ∧
    (s.lock = some l → s.now = l.start + l.limit.setWidth 16 →
      let held : State := { s with lock := none, seqs := s.seqs.set l.owner (.free true) }
      let closed : State := { s with
        lock := none
        seqs := s.seqs.set l.owner (.free false)
        ports := s.ports.set l.owner { s.unit l.owner with
          queue := updateFirst (fun z => z.isAdmitted && decide (z.req.kind = .unlockWrite ∨ z.req.kind = .unlock))
            (fun z => ⟨z.req, .decided (.refused .lockLost)⟩) (s.queueOf l.owner) } }
      let record : FaultRecord := match l.owner with
        | .p0 => ⟨.lockBroken, .p0, none, .lockRead, 1, 1, i.logical, some i.logical, none, s.now⟩
        | .engine e => ⟨.lockBroken, .engine e, i.via.map Via.window, .lockRead, 1, 1, i.logical, some l.word,
            i.via.map Via.selector, s.now⟩
      (s.seqOf l.owner = .holding i → s.opState.records = false → exec .lockTimerExpiry s = .next held) ∧
      (s.seqOf l.owner = .holding i → s.opState.records = true →
        exec .lockTimerExpiry s = .next (held.report record).settle) ∧
      (s.seqOf l.owner = .closing i → s.opState.records = false →
        exec .lockTimerExpiry s = .next closed.settle) ∧
      (s.seqOf l.owner = .closing i → s.opState.records = true →
        exec .lockTimerExpiry s = .next (closed.report record).settle))

/-- INTERVAL_EXPIRY at the timer's count: on each engine port the exit test, then the counter 0; the next expiry falls
INTERVAL later; the hold of each port whose state changed ends (of one for CONFIGURE_PORT it stays known that the request
was held for it, notes/assumptions/31); a status update is raised where one changed; nothing
else changes. Where no expiry is due nothing happens (the model's reading, notes/assumptions/6). -/
def Obligations.IntervalExpires : Prop :=
  ∀ (s : State), s.ready = true →
    (s.nextExpiry ≠ some s.now → exec .intervalExpiry s = .next s) ∧
    (s.nextExpiry = some s.now →
      let left := fun (e : Engine) => decide ((s.eng e).afterExpiry.state ≠ (s.eng e).state)
      let unit := fun (e : Engine) =>
        if left e then (s.unit (.engine e)).afterPortChange else s.unit (.engine e)
      exec .intervalExpiry s = .next { s with
        engines := s.engines.map EngineUnit.afterExpiry
        nextExpiry := some (s.now + s.interval)
        ports := ⟨s.ports.p0, ⟨unit .p1, unit .p2, unit .p3⟩⟩
        ctl := s.ctl ++ (if (left .p1 || left .p2 || left .p3) && s.reporting && !s.statusWaiting
          then [s.statusRequest] else []) })

/-! ### Commands -/

/-- The refusals that come before a command's own checks: while a command is in progress every COMMAND write but a
covered 00h sets OVERRUN and changes nothing else; a covered 00h is ignored; a write that does not cover the word is
refused MALFORMED; a code of 0Ch or above UNKNOWN_COMMAND; a command in a state not listed for it WRONG_STATE. -/
def Obligations.CommandsAreRefusedInOrder : Prop :=
  ∀ (s : State) (c : Instr) (w : Word) (l : Lanes) (code : BitVec 8), s.ready = true →
    (s.command ≠ none → writesCommand c = true → c.wf = true →
      exec c s = .next (s.afterCauses { s.causes with overrun := true })) ∧
    (codeField w = 0 → exec (.ignoredCommand w) s = .next s) ∧
    (s.command = none → s.holdsStand = true →
      (l ≠ 0 → l ≠ 15 → exec (.malformed l w) s = .next (s.afterResult 0 .malformed 0 false)) ∧
      (12 ≤ (codeField w).toNat → exec (.unknownCommand w) s =
        .next (s.afterResult ((codeField w).setWidth 8) .unknownCommand 0 false)) ∧
      (activeCode c = some code → s.opState ≠ .active → exec c s = .next (s.afterResult code .wrongState 0 false)) ∧
      (s.opState ≠ .boot → s.opState ≠ .halted → exec .start s = .next (s.afterResult 1 .wrongState 0 false)))

/-- START taken in BOOT or HALTED: the state it was taken in is recorded, LOADING is entered with every hold ended,
and the result IN_PROGRESS and the two configuration reads stand on the queue in that order. -/
def Obligations.StartIsTaken : Prop :=
  ∀ (s : State), s.ready = true → s.command = none → (s.opState = .boot ∨ s.opState = .halted) →
    exec .start s = .next { s.afterBegin 1 (.start s.opState none)
        [s.readRequest .startRead 0x20 16, s.readRequest .startRead 0x60 12] with
      opState := .loading
      ports := s.portsUnheld }

/-- STOP taken in ACTIVE: LOCK_HELD while a port owns the lock; otherwise STOPPING is entered, every WAITING engine
entry is refused NOT_ACTIVE and every hold ended. Where its conditions hold already (no engine entry ADMITTED or
ISSUED, no posted write, no staged record but those a full ring keeps from being written) it completes in the same
event: BOOT, windows emptied, engine ports DISABLED, timer stopped, result OK. STOP completes at the first moment at
which its conditions hold, in the event that makes them hold: BOOT is entered, the windows are emptied, the engine
ports are DISABLED, the timer stops, no command is in progress and no record is staged, those discarded with the ring
full setting OVERFLOW; the result OK and a status update are raised in that order; WAITING engine entries are refused
NOT_ACTIVE (the model's reading, notes/assumptions/30), so that none is left; the ring, the indices, the table, the
map, the lock and the sequence records stay. -/
def Obligations.StopIsTakenAndCompletes : Prop :=
  (∀ (s : State), s.ready = true → s.command = none → s.opState = .active → s.holdsStand = true →
    let refused : PerPort PortUnit := ⟨{ s.unit .p0 with hold := none }, s.ports.engines.map fun u =>
      u.refuseAll QEntry.isWaiting .notActive⟩
    let stopping : State := { s.afterBegin 2 .stop [] with opState := .stopping, ports := refused }
    (s.lock ≠ none → exec .stop s = .next (s.afterResult 2 .lockHeld 0 false)) ∧
    (s.lock = none → stopping.stopDue = false → exec .stop s = .next stopping) ∧
    (s.lock = none → stopping.stopDue = true → exec .stop s = .next { stopping.stopped with ports := refused }) ∧
    (s.lock = none → s.enginesIdle = true → s.bufferEmpty = true → s.staged = [] → exec .stop s = .next { s with
      opState := .boot
      ports := refused
      engines := s.engines.map fun u => { u with state := .disabled, windows := eightOf Window.reset }
      fetches := s.fetchesCancelled
      nextExpiry := none
      ctl := s.ctlUnwaiting ++ [s.resultRequest 2 .inProgress 0, s.resultRequest 2 .ok 0, s.statusRequest]
      causes := { s.causes with done := true }
      irqAsserted := s.irqAsserted || s.enables.done
      reporting := true })) ∧
  (∀ (s : State) (e : Engine), (∀ p, (s.unit p).settled = true) → s.stopDue = true →
    s.settle = s.stopped ∧ ((s.unit (.engine e)).link = none → s.settle.queueOf (.engine e) = []))

/-- LOAD_WINDOW taken in ACTIVE: BAD_ARGUMENT for P0 or for a selector of TABLE_COUNT or more; otherwise the window
becomes FETCHING for a LOAD with its rotation kept and its flag clear, a fetch it waited for is cancelled, and the
result IN_PROGRESS and the fetch of the selector are raised. The port's state plays no part. CLEAR_WINDOW taken in
ACTIVE: BAD_ARGUMENT for P0; otherwise the window is EMPTY with rotation 0, a refetch of it is cancelled, the hold of
a request held on it ends, and the outcome is OK. -/
def Obligations.WindowLoadsAndClears : Prop :=
  (∀ (s : State) (p : Port) (e : Engine) (w : Index8) (arg : Arg) (k : Selector) (g : TableGeometry),
    s.ready = true → s.command = none → s.opState = .active → s.holdsStand = true →
    (p = .p0 ∨ s.table = none → exec (.loadWindow p w arg) s = .next (s.afterResult 3 .badArgument 0 false)) ∧
    (s.table = some g → g.count ≤ arg.toNat →
      exec (.loadWindow p w arg) s = .next (s.afterResult 3 .badArgument 0 false)) ∧
    (s.table = some g → k.toNat < g.count →
      exec (.loadWindow (.engine e) w (k.setWidth 21)) s = .next
        { s.afterBegin 3 (.loadWindow e w) [fetchRequest g k.toNat] with
          engines := s.engines.set e { s.eng e with
            windows := (s.eng e).windows.set w { s.window e w with state := .fetching .load k false } }
          fetches := (s.fetches.map fun f =>
            if f.engine = e ∧ f.window = w then { f with current := false } else f) ++ [⟨e, w, k, .load, true⟩] })) ∧
  (∀ (s : State) (e : Engine) (w : Index8), s.ready = true → s.command = none → s.opState = .active →
    s.holdsStand = true →
    exec (.clearWindow .p0 w) s = .next (s.afterResult 4 .badArgument 0 false) ∧
    exec (.clearWindow (.engine e) w) s = .next (({ s with
      engines := s.engines.set e { s.eng e with windows := (s.eng e).windows.set w ⟨.empty, 0⟩ }
      fetches := s.fetches.map fun f => if f.engine = e ∧ f.window = w then { f with current := false } else f
      ports := s.ports.set (.engine e) { s.unit (.engine e) with
        hold := if s.holdOf (.engine e) = some (.window w) then none else s.holdOf (.engine e) } } :
          State).afterResult 4 .ok 0 false))

/-- ROTATE taken in ACTIVE, its checks in their order: BAD_ARGUMENT for P0; NOT_ROTATING unless the window is VALID or
STALE with a ROTATING descriptor; BAD_ARGUMENT unless r is below M; otherwise the rotation becomes r and nothing else
of the window changes. -/
def Obligations.RotateIsTaken : Prop :=
  ∀ (s : State) (e : Engine) (w : Index8) (r : Arg) (k : Selector) (d : Checked) (head tail m : Nat) (initial : Arg),
    s.ready = true → s.command = none → s.opState = .active → s.holdsStand = true →
    let v := s.window e w
    (exec (.rotate .p0 w r) s = .next (s.afterResult 5 .badArgument 0 false)) ∧
    (v.state = .empty ∨ v.isFetching = true ∨ ((v.state = .valid k d ∨ v.state = .stale k d) ∧ d.kind = .linear) →
      exec (.rotate (.engine e) w r) s = .next (s.afterResult 5 .notRotating 0 false)) ∧
    ((v.state = .valid k d ∨ v.state = .stale k d) → d.kind = .rotating head tail m initial →
      (m ≤ r.toNat → exec (.rotate (.engine e) w r) s = .next (s.afterResult 5 .badArgument 0 false)) ∧
      (r.toNat < m → exec (.rotate (.engine e) w r) s = .next (({ s with
        engines := s.engines.set e { s.eng e with
          windows := (s.eng e).windows.set w ⟨v.state, r⟩ } } : State).afterResult 5 .ok 0 false)))

/-- INVALIDATE taken in ACTIVE: BAD_ARGUMENT for a selector of TABLE_COUNT or more; otherwise one mark for the
selector on every window, and OK. INVALIDATE_ALL: one mark on every window, and OK. Neither raises a fetch. -/
def Obligations.InvalidatesAreTaken : Prop :=
  ∀ (s : State) (arg : Arg) (g : TableGeometry), s.ready = true → s.command = none → s.opState = .active →
    s.holdsStand = true →
    let marked := fun (v : Window) => match v.state with
      | .valid k d => (⟨.stale k d, v.rotation⟩ : Window)
      | .fetching u k _ => ⟨.fetching u k true, v.rotation⟩
      | .stale _ _ => v
      | .empty => v
    (s.table = none → exec (.invalidate arg) s = .next (s.afterResult 6 .badArgument 0 false)) ∧
    (s.table = some g → g.count ≤ arg.toNat →
      exec (.invalidate arg) s = .next (s.afterResult 6 .badArgument 0 false)) ∧
    (s.table = some g → arg.toNat < g.count →
      exec (.invalidate arg) s = .next (({ s with
        engines := s.engines.map fun u =>
          { u with windows := u.windows.map fun v => if v.holdsSelector arg.toNat then marked v else v } } :
            State).afterResult 6 .ok 0 false)) ∧
    exec .invalidateAll s = .next (({ s with
      engines := s.engines.map fun u => { u with windows := u.windows.map marked } } : State).afterResult 7 .ok 0 false)

/-- RELEASE_PORT taken in ACTIVE: BAD_ARGUMENT for P0; a BLOCKED, QUIET or OPEN port is OPEN with counter 0, a
DISABLED one unchanged, and the outcome is OK; a change of state ends the port's hold. The window and argument fields
of the word are not used, and in any other operating state the outcome is WRONG_STATE. -/
def Obligations.ReleasePortIsTaken : Prop :=
  ∀ (s : State) (p : Port) (e : Engine) (w : Index8) (arg : Arg), s.ready = true → s.command = none →
    s.holdsStand = true →
    commandOf 15 (commandWordOf 8 p w arg) = .releasePort p ∧
    (s.opState ≠ .active → exec (.releasePort p) s = .next (s.afterResult 8 .wrongState 0 false)) ∧
    (s.opState = .active →
      exec (.releasePort .p0) s = .next (s.afterResult 8 .badArgument 0 false) ∧
      ((s.eng e).state = .disabled → exec (.releasePort (.engine e)) s = .next (s.afterResult 8 .ok 0 false)) ∧
      ((s.eng e).state = .opened → exec (.releasePort (.engine e)) s = .next (({ s with
        engines := s.engines.set e { s.eng e with storm := 0 } } : State).afterResult 8 .ok 0 false)) ∧
      ((s.eng e).state = .blocked ∨ (s.eng e).state = .quiet →
        exec (.releasePort (.engine e)) s = .next (({ s with
          engines := s.engines.set e { s.eng e with state := .opened, storm := 0 }
          ports := s.ports.set (.engine e) { s.unit (.engine e) with hold := none } } :
            State).afterResult 8 .ok 0 true)))

/-- CONFIGURE_PORT, RELOAD_MAP and DRAIN taken in ACTIVE become the command in progress with the result IN_PROGRESS
and the reads they need in their order; DRAIN marks every posted entry, and with none it completes in the same event,
with a status update for command busy behind its results although busy is set and cleared within the event (the
model's reading, notes/assumptions/15). -/
def Obligations.LongCommandsAreTaken : Prop :=
  ∀ (s : State) (p : Port), s.ready = true → s.command = none → s.opState = .active → s.holdsStand = true →
    exec (.configurePort p) s = .next (s.afterBegin 9 (.configurePort p)
      [s.readRequest .portRead (0x34 + 4 * (portCode p).toNat) 1]) ∧
    exec .reloadMap s = .next (s.afterBegin 10 (.reloadMap none)
      [s.readRequest .reloadRead 0x30 1, s.readRequest .reloadRead 0x50 16]) ∧
    (s.bufferEmpty = false → exec .drain s = .next { s.afterBegin 11 .drain [] with
      buffer := s.buffer.map fun o => o.map fun v => { v with mark := true } }) ∧
    (s.bufferEmpty = true → exec .drain s = .next { s with
      ctl := s.ctlUnwaiting ++ [s.resultRequest 11 .inProgress 0, s.resultRequest 11 .ok 0, s.statusRequest]
      causes := { s.causes with done := true }
      irqAsserted := s.irqAsserted || s.enables.done
      reporting := true })

/-! ### The other live words -/

/-- CONSUMER in ACTIVE or STOPPING: a covered value below the ring's size that does not pass the producer becomes the
consumer; the head's ring write is raised where that is due, and behind it a status update where QUEUE changes its
level, reporting is on and none waits; IRQ_N follows, and nothing else changes. Any other value, and a write that does
not cover the word, sets MISUSE and leaves the consumer. In BOOT, LOADING and HALTED every write of the word is
ignored. -/
def Obligations.ConsumerIsTaken : Prop :=
  ∀ (s : State) (l : Lanes) (w : Word) (g : RingGeometry), s.ready = true →
    let v := (w.extractLsb' 0 10).toNat
    let misused := s.afterCauses { s.causes with misuse := true }
    let consumed := ({ s with consumer := v } : State).raiseRingWrite
    let queueMoved := decide (s.producer = s.consumer) != decide (s.producer = v)
    (s.opState ≠ .active → s.opState ≠ .stopping → exec (.consumer l w) s = .next s) ∧
    ((s.opState = .active ∨ s.opState = .stopping) → s.ring = some g →
      (l ≠ 0 → l ≠ 15 → exec (.consumer l w) s = .next misused) ∧
      (g.size ≤ v → exec (.consumer 15 w) s = .next misused) ∧
      ((s.producer + g.size - s.consumer) % g.size < (v + g.size - s.consumer) % g.size →
        exec (.consumer 15 w) s = .next misused) ∧
      (v < g.size → (v + g.size - s.consumer) % g.size ≤ (s.producer + g.size - s.consumer) % g.size →
        s.indicesInRing = true → exec (.consumer 15 w) s = .next { consumed with
          irqAsserted := consumed.irqLevel
          ctl := consumed.ctl ++
            (if queueMoved && s.reporting && !s.statusWaiting then [s.statusRequest] else []) }))

/-- ENABLE: a covered word replaces the five enables with bits 0 to 4, and IRQ_N follows; a write that does not cover
the word leaves them and sets MISUSE; in every operating state. ACKNOWLEDGE: a covered word clears OVERFLOW, DONE,
OVERRUN and MISUSE where bits 1 to 4 are 1; a write that does not cover the word clears nothing and sets MISUSE. -/
def Obligations.EnableAndAcknowledgeAreTaken : Prop :=
  ∀ (s : State) (l : Lanes) (w : Word), s.ready = true →
    let misused := s.afterCauses { s.causes with misuse := true }
    (Completes (.enable 15 w) s fun t => t = { s with
      enables := ⟨w.getLsbD 0, w.getLsbD 1, w.getLsbD 2, w.getLsbD 3, w.getLsbD 4⟩
      irqAsserted := t.irqLevel }) ∧
    (l ≠ 0 → l ≠ 15 → exec (.enable l w) s = .next misused) ∧
    (exec (.acknowledge 15 w) s = .next (s.afterCauses {
      overflow := s.causes.overflow && !w.getLsbD 1
      done := s.causes.done && !w.getLsbD 2
      overrun := s.causes.overrun && !w.getLsbD 3
      misuse := s.causes.misuse && !w.getLsbD 4
      halt := s.causes.halt })) ∧
    (l ≠ 0 → l ≠ 15 → exec (.acknowledge l w) s = .next misused)
end

