-- ==== Sys2Proof/Laws/Arbiter.lean ====
section
/-! SUPPORT. What the arbiter's choice of the earliest item of a port can answer. -/

namespace Sys2Proof.Machine

theorem earliest_eq_none_iff (l : List (Nat × Candidate)) : earliest l = none ↔ l = [] := by
  cases l with
  | nil => simp [earliest]
  | cons x l =>
    simp only [earliest, reduceCtorEq, iff_false]
    split
    · split <;> simp
    · simp

/-- The earliest item is one of the list, and none of the list has an earlier place. -/
theorem earliest_spec (l : List (Nat × Candidate)) (x : Nat × Candidate) (h : earliest l = some x) :
    x ∈ l ∧ ∀ y ∈ l, x.1 ≤ y.1 := by
  induction l generalizing x with
  | nil => simp [earliest] at h
  | cons a l ih =>
    simp only [earliest] at h
    split at h
    · rename_i b hb
      obtain ⟨hm, hl⟩ := ih b hb
      split at h <;> rename_i hab <;> cases h
      · exact ⟨List.mem_cons_of_mem _ hm, fun y hy => by
          rcases List.mem_cons.1 hy with rfl | hy
          · exact Nat.le_of_lt hab
          · exact hl y hy⟩
      · exact ⟨List.mem_cons_self, fun y hy => by
          rcases List.mem_cons.1 hy with rfl | hy
          · exact Nat.le_refl _
          · exact Nat.le_trans (Nat.le_of_not_lt hab) (hl y hy)⟩
    · rename_i hn
      cases h
      rw [earliest_eq_none_iff] at hn
      subst hn
      simp

end Sys2Proof.Machine
end

