-- ==== Sys2Proof/Laws/Banks.lean ====
section
/-! SUPPORT. The banks of one value per engine port, per port and per index: reading back what was written, and
reading through a map. -/

namespace Sys2Proof

section
variable {α β : Type}

@[simp] theorem PerEngine.get_set_same (b : PerEngine α) (e : Engine) (a : α) : (b.set e a).get e = a := by
  cases e <;> rfl

@[simp] theorem PerEngine.set_get_same (b : PerEngine α) (e : Engine) : b.set e (b.get e) = b := by
  cases e <;> rfl

@[simp] theorem PerEngine.set_set_same (b : PerEngine α) (e : Engine) (a c : α) : (b.set e a).set e c = b.set e c := by
  cases e <;> rfl

theorem PerEngine.get_set_other (b : PerEngine α) (e f : Engine) (a : α) (h : f ≠ e) :
    (b.set e a).get f = b.get f := by
  cases e <;> cases f <;> first | rfl | exact absurd rfl h

@[simp] theorem PerEngine.get_map (b : PerEngine α) (e : Engine) (f : α → β) : (b.map f).get e = f (b.get e) := by
  cases e <;> rfl

theorem PerEngine.map_unchanged (b : PerEngine α) (f : α → α) (h : ∀ e, f (b.get e) = b.get e) : b.map f = b := by
  cases b with
  | mk x y z =>
    have h1 : f x = x := h .p1
    have h2 : f y = y := h .p2
    have h3 : f z = z := h .p3
    simp [PerEngine.map, h1, h2, h3]

@[simp] theorem PerPort.get_set_same (b : PerPort α) (p : Port) (a : α) : (b.set p a).get p = a := by
  cases p <;> simp [PerPort.set, PerPort.get]

@[simp] theorem PerPort.set_get_same (b : PerPort α) (p : Port) : b.set p (b.get p) = b := by
  cases p <;> simp [PerPort.set, PerPort.get]

@[simp] theorem PerPort.set_set_same (b : PerPort α) (p : Port) (a c : α) : (b.set p a).set p c = b.set p c := by
  cases p <;> simp [PerPort.set]

theorem PerPort.get_set_other (b : PerPort α) (p q : Port) (a : α) (h : q ≠ p) : (b.set p a).get q = b.get q := by
  cases p with
  | p0 => cases q <;> first | exact absurd rfl h | rfl
  | engine e =>
    cases q with
    | p0 => rfl
    | engine f => exact b.engines.get_set_other e f a fun he => h (congrArg Port.engine he)

@[simp] theorem PerPort.get_map (b : PerPort α) (p : Port) (f : α → β) : (b.map f).get p = f (b.get p) := by
  cases p <;> simp [PerPort.map, PerPort.get]

theorem PerPort.map_unchanged (b : PerPort α) (f : α → α) (h : ∀ p, f (b.get p) = b.get p) : b.map f = b := by
  have h0 : f b.p0 = b.p0 := h .p0
  have h1 : b.engines.map f = b.engines := b.engines.map_unchanged f fun e => h (.engine e)
  simp [PerPort.map, h0, h1]

@[simp] theorem Eight.get_set_same (b : Eight α) (i : Index8) (a : α) : (b.set i a).get i = a := by
  match i with
  | 0 | 1 | 2 | 3 | 4 | 5 | 6 | 7 => rfl

@[simp] theorem Eight.set_get_same (b : Eight α) (i : Index8) : b.set i (b.get i) = b := by
  match i with
  | 0 | 1 | 2 | 3 | 4 | 5 | 6 | 7 => rfl

theorem Eight.get_set_other (b : Eight α) (i j : Index8) (a : α) (h : j ≠ i) : (b.set i a).get j = b.get j := by
  match i, j with
  | 0, 0 | 1, 1 | 2, 2 | 3, 3 | 4, 4 | 5, 5 | 6, 6 | 7, 7 => exact absurd rfl h
  | 0, 1 | 0, 2 | 0, 3 | 0, 4 | 0, 5 | 0, 6 | 0, 7 | 1, 0 | 1, 2 | 1, 3 | 1, 4 | 1, 5 | 1, 6 | 1, 7 | 2, 0 | 2, 1
  | 2, 3 | 2, 4 | 2, 5 | 2, 6 | 2, 7 | 3, 0 | 3, 1 | 3, 2 | 3, 4 | 3, 5 | 3, 6 | 3, 7 | 4, 0 | 4, 1 | 4, 2 | 4, 3
  | 4, 5 | 4, 6 | 4, 7 | 5, 0 | 5, 1 | 5, 2 | 5, 3 | 5, 4 | 5, 6 | 5, 7 | 6, 0 | 6, 1 | 6, 2 | 6, 3 | 6, 4 | 6, 5
  | 6, 7 | 7, 0 | 7, 1 | 7, 2 | 7, 3 | 7, 4 | 7, 5 | 7, 6 => rfl

@[simp] theorem Eight.get_map (b : Eight α) (i : Index8) (f : α → β) : (b.map f).get i = f (b.get i) := by
  match i with
  | 0 | 1 | 2 | 3 | 4 | 5 | 6 | 7 => rfl

@[simp] theorem Eight.get_build (f : Index8 → α) (i : Index8) : (Eight.build f).get i = f i := by
  match i with
  | 0 | 1 | 2 | 3 | 4 | 5 | 6 | 7 => rfl

end

end Sys2Proof
end

