-- ==== Sys2Proof/Laws/State.lean ====
section
/-! SUPPORT. The updates of State, field by field: one lemma for each field and update, true by rfl; and reading
back what was written in the banks of one value per port, engine port or window. -/

namespace Sys2Proof.Machine

section
variable (s : State)

@[simp] theorem State.setPorts_ports (v : PerPort PortUnit) : (s.setPorts v).ports = v := rfl
@[simp] theorem State.setPorts_engines (v : PerPort PortUnit) : (s.setPorts v).engines = s.engines := rfl
@[simp] theorem State.setPorts_p0LockLimit (v : PerPort PortUnit) : (s.setPorts v).p0LockLimit = s.p0LockLimit := rfl
@[simp] theorem State.setPorts_fetches (v : PerPort PortUnit) : (s.setPorts v).fetches = s.fetches := rfl
@[simp] theorem State.setPorts_table (v : PerPort PortUnit) : (s.setPorts v).table = s.table := rfl
@[simp] theorem State.setPorts_map (v : PerPort PortUnit) : (s.setPorts v).map = s.map := rfl
@[simp] theorem State.setPorts_buffer (v : PerPort PortUnit) : (s.setPorts v).buffer = s.buffer := rfl
@[simp] theorem State.setPorts_issued (v : PerPort PortUnit) : (s.setPorts v).issued = s.issued := rfl
@[simp] theorem State.setPorts_roundRobin (v : PerPort PortUnit) : (s.setPorts v).roundRobin = s.roundRobin := rfl
@[simp] theorem State.setPorts_ctl (v : PerPort PortUnit) : (s.setPorts v).ctl = s.ctl := rfl
@[simp] theorem State.setPorts_lock (v : PerPort PortUnit) : (s.setPorts v).lock = s.lock := rfl
@[simp] theorem State.setPorts_seqs (v : PerPort PortUnit) : (s.setPorts v).seqs = s.seqs := rfl
@[simp] theorem State.setPorts_ring (v : PerPort PortUnit) : (s.setPorts v).ring = s.ring := rfl
@[simp] theorem State.setPorts_staged (v : PerPort PortUnit) : (s.setPorts v).staged = s.staged := rfl
@[simp] theorem State.setPorts_producer (v : PerPort PortUnit) : (s.setPorts v).producer = s.producer := rfl
@[simp] theorem State.setPorts_consumer (v : PerPort PortUnit) : (s.setPorts v).consumer = s.consumer := rfl
@[simp] theorem State.setPorts_interval (v : PerPort PortUnit) : (s.setPorts v).interval = s.interval := rfl
@[simp] theorem State.setPorts_nextExpiry (v : PerPort PortUnit) : (s.setPorts v).nextExpiry = s.nextExpiry := rfl
@[simp] theorem State.setPorts_opState (v : PerPort PortUnit) : (s.setPorts v).opState = s.opState := rfl
@[simp] theorem State.setPorts_command (v : PerPort PortUnit) : (s.setPorts v).command = s.command := rfl
@[simp] theorem State.setPorts_reporting (v : PerPort PortUnit) : (s.setPorts v).reporting = s.reporting := rfl
@[simp] theorem State.setPorts_statusChanged (v : PerPort PortUnit) : (s.setPorts v).statusChanged = s.statusChanged := rfl
@[simp] theorem State.setPorts_causes (v : PerPort PortUnit) : (s.setPorts v).causes = s.causes := rfl
@[simp] theorem State.setPorts_enables (v : PerPort PortUnit) : (s.setPorts v).enables = s.enables := rfl
@[simp] theorem State.setPorts_irqAsserted (v : PerPort PortUnit) : (s.setPorts v).irqAsserted = s.irqAsserted := rfl
@[simp] theorem State.setPorts_now (v : PerPort PortUnit) : (s.setPorts v).now = s.now := rfl
@[simp] theorem State.setPorts_anc (v : PerPort PortUnit) : (s.setPorts v).anc = s.anc := rfl
@[simp] theorem State.setPorts_div (v : PerPort PortUnit) : (s.setPorts v).div = s.div := rfl
@[simp] theorem State.setPorts_inReset (v : PerPort PortUnit) : (s.setPorts v).inReset = s.inReset := rfl
@[simp] theorem State.setPorts_freeCounter (v : PerPort PortUnit) : (s.setPorts v).freeCounter = s.freeCounter := rfl
@[simp] theorem State.setPorts_pending (v : PerPort PortUnit) : (s.setPorts v).pending = s.pending := rfl
@[simp] theorem State.setEngines_ports (v : PerEngine EngineUnit) : (s.setEngines v).ports = s.ports := rfl
@[simp] theorem State.setEngines_engines (v : PerEngine EngineUnit) : (s.setEngines v).engines = v := rfl
@[simp] theorem State.setEngines_p0LockLimit (v : PerEngine EngineUnit) : (s.setEngines v).p0LockLimit = s.p0LockLimit := rfl
@[simp] theorem State.setEngines_fetches (v : PerEngine EngineUnit) : (s.setEngines v).fetches = s.fetches := rfl
@[simp] theorem State.setEngines_table (v : PerEngine EngineUnit) : (s.setEngines v).table = s.table := rfl
@[simp] theorem State.setEngines_map (v : PerEngine EngineUnit) : (s.setEngines v).map = s.map := rfl
@[simp] theorem State.setEngines_buffer (v : PerEngine EngineUnit) : (s.setEngines v).buffer = s.buffer := rfl
@[simp] theorem State.setEngines_issued (v : PerEngine EngineUnit) : (s.setEngines v).issued = s.issued := rfl
@[simp] theorem State.setEngines_roundRobin (v : PerEngine EngineUnit) : (s.setEngines v).roundRobin = s.roundRobin := rfl
@[simp] theorem State.setEngines_ctl (v : PerEngine EngineUnit) : (s.setEngines v).ctl = s.ctl := rfl
@[simp] theorem State.setEngines_lock (v : PerEngine EngineUnit) : (s.setEngines v).lock = s.lock := rfl
@[simp] theorem State.setEngines_seqs (v : PerEngine EngineUnit) : (s.setEngines v).seqs = s.seqs := rfl
@[simp] theorem State.setEngines_ring (v : PerEngine EngineUnit) : (s.setEngines v).ring = s.ring := rfl
@[simp] theorem State.setEngines_staged (v : PerEngine EngineUnit) : (s.setEngines v).staged = s.staged := rfl
@[simp] theorem State.setEngines_producer (v : PerEngine EngineUnit) : (s.setEngines v).producer = s.producer := rfl
@[simp] theorem State.setEngines_consumer (v : PerEngine EngineUnit) : (s.setEngines v).consumer = s.consumer := rfl
@[simp] theorem State.setEngines_interval (v : PerEngine EngineUnit) : (s.setEngines v).interval = s.interval := rfl
@[simp] theorem State.setEngines_nextExpiry (v : PerEngine EngineUnit) : (s.setEngines v).nextExpiry = s.nextExpiry := rfl
@[simp] theorem State.setEngines_opState (v : PerEngine EngineUnit) : (s.setEngines v).opState = s.opState := rfl
@[simp] theorem State.setEngines_command (v : PerEngine EngineUnit) : (s.setEngines v).command = s.command := rfl
@[simp] theorem State.setEngines_reporting (v : PerEngine EngineUnit) : (s.setEngines v).reporting = s.reporting := rfl
@[simp] theorem State.setEngines_statusChanged (v : PerEngine EngineUnit) : (s.setEngines v).statusChanged = s.statusChanged := rfl
@[simp] theorem State.setEngines_causes (v : PerEngine EngineUnit) : (s.setEngines v).causes = s.causes := rfl
@[simp] theorem State.setEngines_enables (v : PerEngine EngineUnit) : (s.setEngines v).enables = s.enables := rfl
@[simp] theorem State.setEngines_irqAsserted (v : PerEngine EngineUnit) : (s.setEngines v).irqAsserted = s.irqAsserted := rfl
@[simp] theorem State.setEngines_now (v : PerEngine EngineUnit) : (s.setEngines v).now = s.now := rfl
@[simp] theorem State.setEngines_anc (v : PerEngine EngineUnit) : (s.setEngines v).anc = s.anc := rfl
@[simp] theorem State.setEngines_div (v : PerEngine EngineUnit) : (s.setEngines v).div = s.div := rfl
@[simp] theorem State.setEngines_inReset (v : PerEngine EngineUnit) : (s.setEngines v).inReset = s.inReset := rfl
@[simp] theorem State.setEngines_freeCounter (v : PerEngine EngineUnit) : (s.setEngines v).freeCounter = s.freeCounter := rfl
@[simp] theorem State.setEngines_pending (v : PerEngine EngineUnit) : (s.setEngines v).pending = s.pending := rfl
@[simp] theorem State.setP0LockLimit_ports (v : BitVec 8) : (s.setP0LockLimit v).ports = s.ports := rfl
@[simp] theorem State.setP0LockLimit_engines (v : BitVec 8) : (s.setP0LockLimit v).engines = s.engines := rfl
@[simp] theorem State.setP0LockLimit_p0LockLimit (v : BitVec 8) : (s.setP0LockLimit v).p0LockLimit = v := rfl
@[simp] theorem State.setP0LockLimit_fetches (v : BitVec 8) : (s.setP0LockLimit v).fetches = s.fetches := rfl
@[simp] theorem State.setP0LockLimit_table (v : BitVec 8) : (s.setP0LockLimit v).table = s.table := rfl
@[simp] theorem State.setP0LockLimit_map (v : BitVec 8) : (s.setP0LockLimit v).map = s.map := rfl
@[simp] theorem State.setP0LockLimit_buffer (v : BitVec 8) : (s.setP0LockLimit v).buffer = s.buffer := rfl
@[simp] theorem State.setP0LockLimit_issued (v : BitVec 8) : (s.setP0LockLimit v).issued = s.issued := rfl
@[simp] theorem State.setP0LockLimit_roundRobin (v : BitVec 8) : (s.setP0LockLimit v).roundRobin = s.roundRobin := rfl
@[simp] theorem State.setP0LockLimit_ctl (v : BitVec 8) : (s.setP0LockLimit v).ctl = s.ctl := rfl
@[simp] theorem State.setP0LockLimit_lock (v : BitVec 8) : (s.setP0LockLimit v).lock = s.lock := rfl
@[simp] theorem State.setP0LockLimit_seqs (v : BitVec 8) : (s.setP0LockLimit v).seqs = s.seqs := rfl
@[simp] theorem State.setP0LockLimit_ring (v : BitVec 8) : (s.setP0LockLimit v).ring = s.ring := rfl
@[simp] theorem State.setP0LockLimit_staged (v : BitVec 8) : (s.setP0LockLimit v).staged = s.staged := rfl
@[simp] theorem State.setP0LockLimit_producer (v : BitVec 8) : (s.setP0LockLimit v).producer = s.producer := rfl
@[simp] theorem State.setP0LockLimit_consumer (v : BitVec 8) : (s.setP0LockLimit v).consumer = s.consumer := rfl
@[simp] theorem State.setP0LockLimit_interval (v : BitVec 8) : (s.setP0LockLimit v).interval = s.interval := rfl
@[simp] theorem State.setP0LockLimit_nextExpiry (v : BitVec 8) : (s.setP0LockLimit v).nextExpiry = s.nextExpiry := rfl
@[simp] theorem State.setP0LockLimit_opState (v : BitVec 8) : (s.setP0LockLimit v).opState = s.opState := rfl
@[simp] theorem State.setP0LockLimit_command (v : BitVec 8) : (s.setP0LockLimit v).command = s.command := rfl
@[simp] theorem State.setP0LockLimit_reporting (v : BitVec 8) : (s.setP0LockLimit v).reporting = s.reporting := rfl
@[simp] theorem State.setP0LockLimit_statusChanged (v : BitVec 8) : (s.setP0LockLimit v).statusChanged = s.statusChanged := rfl
@[simp] theorem State.setP0LockLimit_causes (v : BitVec 8) : (s.setP0LockLimit v).causes = s.causes := rfl
@[simp] theorem State.setP0LockLimit_enables (v : BitVec 8) : (s.setP0LockLimit v).enables = s.enables := rfl
@[simp] theorem State.setP0LockLimit_irqAsserted (v : BitVec 8) : (s.setP0LockLimit v).irqAsserted = s.irqAsserted := rfl
@[simp] theorem State.setP0LockLimit_now (v : BitVec 8) : (s.setP0LockLimit v).now = s.now := rfl
@[simp] theorem State.setP0LockLimit_anc (v : BitVec 8) : (s.setP0LockLimit v).anc = s.anc := rfl
@[simp] theorem State.setP0LockLimit_div (v : BitVec 8) : (s.setP0LockLimit v).div = s.div := rfl
@[simp] theorem State.setP0LockLimit_inReset (v : BitVec 8) : (s.setP0LockLimit v).inReset = s.inReset := rfl
@[simp] theorem State.setP0LockLimit_freeCounter (v : BitVec 8) : (s.setP0LockLimit v).freeCounter = s.freeCounter := rfl
@[simp] theorem State.setP0LockLimit_pending (v : BitVec 8) : (s.setP0LockLimit v).pending = s.pending := rfl
@[simp] theorem State.setFetches_ports (v : List Fetch) : (s.setFetches v).ports = s.ports := rfl
@[simp] theorem State.setFetches_engines (v : List Fetch) : (s.setFetches v).engines = s.engines := rfl
@[simp] theorem State.setFetches_p0LockLimit (v : List Fetch) : (s.setFetches v).p0LockLimit = s.p0LockLimit := rfl
@[simp] theorem State.setFetches_fetches (v : List Fetch) : (s.setFetches v).fetches = v := rfl
@[simp] theorem State.setFetches_table (v : List Fetch) : (s.setFetches v).table = s.table := rfl
@[simp] theorem State.setFetches_map (v : List Fetch) : (s.setFetches v).map = s.map := rfl
@[simp] theorem State.setFetches_buffer (v : List Fetch) : (s.setFetches v).buffer = s.buffer := rfl
@[simp] theorem State.setFetches_issued (v : List Fetch) : (s.setFetches v).issued = s.issued := rfl
@[simp] theorem State.setFetches_roundRobin (v : List Fetch) : (s.setFetches v).roundRobin = s.roundRobin := rfl
@[simp] theorem State.setFetches_ctl (v : List Fetch) : (s.setFetches v).ctl = s.ctl := rfl
@[simp] theorem State.setFetches_lock (v : List Fetch) : (s.setFetches v).lock = s.lock := rfl
@[simp] theorem State.setFetches_seqs (v : List Fetch) : (s.setFetches v).seqs = s.seqs := rfl
@[simp] theorem State.setFetches_ring (v : List Fetch) : (s.setFetches v).ring = s.ring := rfl
@[simp] theorem State.setFetches_staged (v : List Fetch) : (s.setFetches v).staged = s.staged := rfl
@[simp] theorem State.setFetches_producer (v : List Fetch) : (s.setFetches v).producer = s.producer := rfl
@[simp] theorem State.setFetches_consumer (v : List Fetch) : (s.setFetches v).consumer = s.consumer := rfl
@[simp] theorem State.setFetches_interval (v : List Fetch) : (s.setFetches v).interval = s.interval := rfl
@[simp] theorem State.setFetches_nextExpiry (v : List Fetch) : (s.setFetches v).nextExpiry = s.nextExpiry := rfl
@[simp] theorem State.setFetches_opState (v : List Fetch) : (s.setFetches v).opState = s.opState := rfl
@[simp] theorem State.setFetches_command (v : List Fetch) : (s.setFetches v).command = s.command := rfl
@[simp] theorem State.setFetches_reporting (v : List Fetch) : (s.setFetches v).reporting = s.reporting := rfl
@[simp] theorem State.setFetches_statusChanged (v : List Fetch) : (s.setFetches v).statusChanged = s.statusChanged := rfl
@[simp] theorem State.setFetches_causes (v : List Fetch) : (s.setFetches v).causes = s.causes := rfl
@[simp] theorem State.setFetches_enables (v : List Fetch) : (s.setFetches v).enables = s.enables := rfl
@[simp] theorem State.setFetches_irqAsserted (v : List Fetch) : (s.setFetches v).irqAsserted = s.irqAsserted := rfl
@[simp] theorem State.setFetches_now (v : List Fetch) : (s.setFetches v).now = s.now := rfl
@[simp] theorem State.setFetches_anc (v : List Fetch) : (s.setFetches v).anc = s.anc := rfl
@[simp] theorem State.setFetches_div (v : List Fetch) : (s.setFetches v).div = s.div := rfl
@[simp] theorem State.setFetches_inReset (v : List Fetch) : (s.setFetches v).inReset = s.inReset := rfl
@[simp] theorem State.setFetches_freeCounter (v : List Fetch) : (s.setFetches v).freeCounter = s.freeCounter := rfl
@[simp] theorem State.setFetches_pending (v : List Fetch) : (s.setFetches v).pending = s.pending := rfl
@[simp] theorem State.setTable_ports (v : Option TableGeometry) : (s.setTable v).ports = s.ports := rfl
@[simp] theorem State.setTable_engines (v : Option TableGeometry) : (s.setTable v).engines = s.engines := rfl
@[simp] theorem State.setTable_p0LockLimit (v : Option TableGeometry) : (s.setTable v).p0LockLimit = s.p0LockLimit := rfl
@[simp] theorem State.setTable_fetches (v : Option TableGeometry) : (s.setTable v).fetches = s.fetches := rfl
@[simp] theorem State.setTable_table (v : Option TableGeometry) : (s.setTable v).table = v := rfl
@[simp] theorem State.setTable_map (v : Option TableGeometry) : (s.setTable v).map = s.map := rfl
@[simp] theorem State.setTable_buffer (v : Option TableGeometry) : (s.setTable v).buffer = s.buffer := rfl
@[simp] theorem State.setTable_issued (v : Option TableGeometry) : (s.setTable v).issued = s.issued := rfl
@[simp] theorem State.setTable_roundRobin (v : Option TableGeometry) : (s.setTable v).roundRobin = s.roundRobin := rfl
@[simp] theorem State.setTable_ctl (v : Option TableGeometry) : (s.setTable v).ctl = s.ctl := rfl
@[simp] theorem State.setTable_lock (v : Option TableGeometry) : (s.setTable v).lock = s.lock := rfl
@[simp] theorem State.setTable_seqs (v : Option TableGeometry) : (s.setTable v).seqs = s.seqs := rfl
@[simp] theorem State.setTable_ring (v : Option TableGeometry) : (s.setTable v).ring = s.ring := rfl
@[simp] theorem State.setTable_staged (v : Option TableGeometry) : (s.setTable v).staged = s.staged := rfl
@[simp] theorem State.setTable_producer (v : Option TableGeometry) : (s.setTable v).producer = s.producer := rfl
@[simp] theorem State.setTable_consumer (v : Option TableGeometry) : (s.setTable v).consumer = s.consumer := rfl
@[simp] theorem State.setTable_interval (v : Option TableGeometry) : (s.setTable v).interval = s.interval := rfl
@[simp] theorem State.setTable_nextExpiry (v : Option TableGeometry) : (s.setTable v).nextExpiry = s.nextExpiry := rfl
@[simp] theorem State.setTable_opState (v : Option TableGeometry) : (s.setTable v).opState = s.opState := rfl
@[simp] theorem State.setTable_command (v : Option TableGeometry) : (s.setTable v).command = s.command := rfl
@[simp] theorem State.setTable_reporting (v : Option TableGeometry) : (s.setTable v).reporting = s.reporting := rfl
@[simp] theorem State.setTable_statusChanged (v : Option TableGeometry) : (s.setTable v).statusChanged = s.statusChanged := rfl
@[simp] theorem State.setTable_causes (v : Option TableGeometry) : (s.setTable v).causes = s.causes := rfl
@[simp] theorem State.setTable_enables (v : Option TableGeometry) : (s.setTable v).enables = s.enables := rfl
@[simp] theorem State.setTable_irqAsserted (v : Option TableGeometry) : (s.setTable v).irqAsserted = s.irqAsserted := rfl
@[simp] theorem State.setTable_now (v : Option TableGeometry) : (s.setTable v).now = s.now := rfl
@[simp] theorem State.setTable_anc (v : Option TableGeometry) : (s.setTable v).anc = s.anc := rfl
@[simp] theorem State.setTable_div (v : Option TableGeometry) : (s.setTable v).div = s.div := rfl
@[simp] theorem State.setTable_inReset (v : Option TableGeometry) : (s.setTable v).inReset = s.inReset := rfl
@[simp] theorem State.setTable_freeCounter (v : Option TableGeometry) : (s.setTable v).freeCounter = s.freeCounter := rfl
@[simp] theorem State.setTable_pending (v : Option TableGeometry) : (s.setTable v).pending = s.pending := rfl
@[simp] theorem State.setMap_ports (v : AttributeMap) : (s.setMap v).ports = s.ports := rfl
@[simp] theorem State.setMap_engines (v : AttributeMap) : (s.setMap v).engines = s.engines := rfl
@[simp] theorem State.setMap_p0LockLimit (v : AttributeMap) : (s.setMap v).p0LockLimit = s.p0LockLimit := rfl
@[simp] theorem State.setMap_fetches (v : AttributeMap) : (s.setMap v).fetches = s.fetches := rfl
@[simp] theorem State.setMap_table (v : AttributeMap) : (s.setMap v).table = s.table := rfl
@[simp] theorem State.setMap_map (v : AttributeMap) : (s.setMap v).map = v := rfl
@[simp] theorem State.setMap_buffer (v : AttributeMap) : (s.setMap v).buffer = s.buffer := rfl
@[simp] theorem State.setMap_issued (v : AttributeMap) : (s.setMap v).issued = s.issued := rfl
@[simp] theorem State.setMap_roundRobin (v : AttributeMap) : (s.setMap v).roundRobin = s.roundRobin := rfl
@[simp] theorem State.setMap_ctl (v : AttributeMap) : (s.setMap v).ctl = s.ctl := rfl
@[simp] theorem State.setMap_lock (v : AttributeMap) : (s.setMap v).lock = s.lock := rfl
@[simp] theorem State.setMap_seqs (v : AttributeMap) : (s.setMap v).seqs = s.seqs := rfl
@[simp] theorem State.setMap_ring (v : AttributeMap) : (s.setMap v).ring = s.ring := rfl
@[simp] theorem State.setMap_staged (v : AttributeMap) : (s.setMap v).staged = s.staged := rfl
@[simp] theorem State.setMap_producer (v : AttributeMap) : (s.setMap v).producer = s.producer := rfl
@[simp] theorem State.setMap_consumer (v : AttributeMap) : (s.setMap v).consumer = s.consumer := rfl
@[simp] theorem State.setMap_interval (v : AttributeMap) : (s.setMap v).interval = s.interval := rfl
@[simp] theorem State.setMap_nextExpiry (v : AttributeMap) : (s.setMap v).nextExpiry = s.nextExpiry := rfl
@[simp] theorem State.setMap_opState (v : AttributeMap) : (s.setMap v).opState = s.opState := rfl
@[simp] theorem State.setMap_command (v : AttributeMap) : (s.setMap v).command = s.command := rfl
@[simp] theorem State.setMap_reporting (v : AttributeMap) : (s.setMap v).reporting = s.reporting := rfl
@[simp] theorem State.setMap_statusChanged (v : AttributeMap) : (s.setMap v).statusChanged = s.statusChanged := rfl
@[simp] theorem State.setMap_causes (v : AttributeMap) : (s.setMap v).causes = s.causes := rfl
@[simp] theorem State.setMap_enables (v : AttributeMap) : (s.setMap v).enables = s.enables := rfl
@[simp] theorem State.setMap_irqAsserted (v : AttributeMap) : (s.setMap v).irqAsserted = s.irqAsserted := rfl
@[simp] theorem State.setMap_now (v : AttributeMap) : (s.setMap v).now = s.now := rfl
@[simp] theorem State.setMap_anc (v : AttributeMap) : (s.setMap v).anc = s.anc := rfl
@[simp] theorem State.setMap_div (v : AttributeMap) : (s.setMap v).div = s.div := rfl
@[simp] theorem State.setMap_inReset (v : AttributeMap) : (s.setMap v).inReset = s.inReset := rfl
@[simp] theorem State.setMap_freeCounter (v : AttributeMap) : (s.setMap v).freeCounter = s.freeCounter := rfl
@[simp] theorem State.setMap_pending (v : AttributeMap) : (s.setMap v).pending = s.pending := rfl
@[simp] theorem State.setBuffer_ports (v : Eight (Option Posted)) : (s.setBuffer v).ports = s.ports := rfl
@[simp] theorem State.setBuffer_engines (v : Eight (Option Posted)) : (s.setBuffer v).engines = s.engines := rfl
@[simp] theorem State.setBuffer_p0LockLimit (v : Eight (Option Posted)) : (s.setBuffer v).p0LockLimit = s.p0LockLimit := rfl
@[simp] theorem State.setBuffer_fetches (v : Eight (Option Posted)) : (s.setBuffer v).fetches = s.fetches := rfl
@[simp] theorem State.setBuffer_table (v : Eight (Option Posted)) : (s.setBuffer v).table = s.table := rfl
@[simp] theorem State.setBuffer_map (v : Eight (Option Posted)) : (s.setBuffer v).map = s.map := rfl
@[simp] theorem State.setBuffer_buffer (v : Eight (Option Posted)) : (s.setBuffer v).buffer = v := rfl
@[simp] theorem State.setBuffer_issued (v : Eight (Option Posted)) : (s.setBuffer v).issued = s.issued := rfl
@[simp] theorem State.setBuffer_roundRobin (v : Eight (Option Posted)) : (s.setBuffer v).roundRobin = s.roundRobin := rfl
@[simp] theorem State.setBuffer_ctl (v : Eight (Option Posted)) : (s.setBuffer v).ctl = s.ctl := rfl
@[simp] theorem State.setBuffer_lock (v : Eight (Option Posted)) : (s.setBuffer v).lock = s.lock := rfl
@[simp] theorem State.setBuffer_seqs (v : Eight (Option Posted)) : (s.setBuffer v).seqs = s.seqs := rfl
@[simp] theorem State.setBuffer_ring (v : Eight (Option Posted)) : (s.setBuffer v).ring = s.ring := rfl
@[simp] theorem State.setBuffer_staged (v : Eight (Option Posted)) : (s.setBuffer v).staged = s.staged := rfl
@[simp] theorem State.setBuffer_producer (v : Eight (Option Posted)) : (s.setBuffer v).producer = s.producer := rfl
@[simp] theorem State.setBuffer_consumer (v : Eight (Option Posted)) : (s.setBuffer v).consumer = s.consumer := rfl
@[simp] theorem State.setBuffer_interval (v : Eight (Option Posted)) : (s.setBuffer v).interval = s.interval := rfl
@[simp] theorem State.setBuffer_nextExpiry (v : Eight (Option Posted)) : (s.setBuffer v).nextExpiry = s.nextExpiry := rfl
@[simp] theorem State.setBuffer_opState (v : Eight (Option Posted)) : (s.setBuffer v).opState = s.opState := rfl
@[simp] theorem State.setBuffer_command (v : Eight (Option Posted)) : (s.setBuffer v).command = s.command := rfl
@[simp] theorem State.setBuffer_reporting (v : Eight (Option Posted)) : (s.setBuffer v).reporting = s.reporting := rfl
@[simp] theorem State.setBuffer_statusChanged (v : Eight (Option Posted)) : (s.setBuffer v).statusChanged = s.statusChanged := rfl
@[simp] theorem State.setBuffer_causes (v : Eight (Option Posted)) : (s.setBuffer v).causes = s.causes := rfl
@[simp] theorem State.setBuffer_enables (v : Eight (Option Posted)) : (s.setBuffer v).enables = s.enables := rfl
@[simp] theorem State.setBuffer_irqAsserted (v : Eight (Option Posted)) : (s.setBuffer v).irqAsserted = s.irqAsserted := rfl
@[simp] theorem State.setBuffer_now (v : Eight (Option Posted)) : (s.setBuffer v).now = s.now := rfl
@[simp] theorem State.setBuffer_anc (v : Eight (Option Posted)) : (s.setBuffer v).anc = s.anc := rfl
@[simp] theorem State.setBuffer_div (v : Eight (Option Posted)) : (s.setBuffer v).div = s.div := rfl
@[simp] theorem State.setBuffer_inReset (v : Eight (Option Posted)) : (s.setBuffer v).inReset = s.inReset := rfl
@[simp] theorem State.setBuffer_freeCounter (v : Eight (Option Posted)) : (s.setBuffer v).freeCounter = s.freeCounter := rfl
@[simp] theorem State.setBuffer_pending (v : Eight (Option Posted)) : (s.setBuffer v).pending = s.pending := rfl
@[simp] theorem State.setIssued_ports (v : List Issued) : (s.setIssued v).ports = s.ports := rfl
@[simp] theorem State.setIssued_engines (v : List Issued) : (s.setIssued v).engines = s.engines := rfl
@[simp] theorem State.setIssued_p0LockLimit (v : List Issued) : (s.setIssued v).p0LockLimit = s.p0LockLimit := rfl
@[simp] theorem State.setIssued_fetches (v : List Issued) : (s.setIssued v).fetches = s.fetches := rfl
@[simp] theorem State.setIssued_table (v : List Issued) : (s.setIssued v).table = s.table := rfl
@[simp] theorem State.setIssued_map (v : List Issued) : (s.setIssued v).map = s.map := rfl
@[simp] theorem State.setIssued_buffer (v : List Issued) : (s.setIssued v).buffer = s.buffer := rfl
@[simp] theorem State.setIssued_issued (v : List Issued) : (s.setIssued v).issued = v := rfl
@[simp] theorem State.setIssued_roundRobin (v : List Issued) : (s.setIssued v).roundRobin = s.roundRobin := rfl
@[simp] theorem State.setIssued_ctl (v : List Issued) : (s.setIssued v).ctl = s.ctl := rfl
@[simp] theorem State.setIssued_lock (v : List Issued) : (s.setIssued v).lock = s.lock := rfl
@[simp] theorem State.setIssued_seqs (v : List Issued) : (s.setIssued v).seqs = s.seqs := rfl
@[simp] theorem State.setIssued_ring (v : List Issued) : (s.setIssued v).ring = s.ring := rfl
@[simp] theorem State.setIssued_staged (v : List Issued) : (s.setIssued v).staged = s.staged := rfl
@[simp] theorem State.setIssued_producer (v : List Issued) : (s.setIssued v).producer = s.producer := rfl
@[simp] theorem State.setIssued_consumer (v : List Issued) : (s.setIssued v).consumer = s.consumer := rfl
@[simp] theorem State.setIssued_interval (v : List Issued) : (s.setIssued v).interval = s.interval := rfl
@[simp] theorem State.setIssued_nextExpiry (v : List Issued) : (s.setIssued v).nextExpiry = s.nextExpiry := rfl
@[simp] theorem State.setIssued_opState (v : List Issued) : (s.setIssued v).opState = s.opState := rfl
@[simp] theorem State.setIssued_command (v : List Issued) : (s.setIssued v).command = s.command := rfl
@[simp] theorem State.setIssued_reporting (v : List Issued) : (s.setIssued v).reporting = s.reporting := rfl
@[simp] theorem State.setIssued_statusChanged (v : List Issued) : (s.setIssued v).statusChanged = s.statusChanged := rfl
@[simp] theorem State.setIssued_causes (v : List Issued) : (s.setIssued v).causes = s.causes := rfl
@[simp] theorem State.setIssued_enables (v : List Issued) : (s.setIssued v).enables = s.enables := rfl
@[simp] theorem State.setIssued_irqAsserted (v : List Issued) : (s.setIssued v).irqAsserted = s.irqAsserted := rfl
@[simp] theorem State.setIssued_now (v : List Issued) : (s.setIssued v).now = s.now := rfl
@[simp] theorem State.setIssued_anc (v : List Issued) : (s.setIssued v).anc = s.anc := rfl
@[simp] theorem State.setIssued_div (v : List Issued) : (s.setIssued v).div = s.div := rfl
@[simp] theorem State.setIssued_inReset (v : List Issued) : (s.setIssued v).inReset = s.inReset := rfl
@[simp] theorem State.setIssued_freeCounter (v : List Issued) : (s.setIssued v).freeCounter = s.freeCounter := rfl
@[simp] theorem State.setIssued_pending (v : List Issued) : (s.setIssued v).pending = s.pending := rfl
@[simp] theorem State.setRoundRobin_ports (v : Port) : (s.setRoundRobin v).ports = s.ports := rfl
@[simp] theorem State.setRoundRobin_engines (v : Port) : (s.setRoundRobin v).engines = s.engines := rfl
@[simp] theorem State.setRoundRobin_p0LockLimit (v : Port) : (s.setRoundRobin v).p0LockLimit = s.p0LockLimit := rfl
@[simp] theorem State.setRoundRobin_fetches (v : Port) : (s.setRoundRobin v).fetches = s.fetches := rfl
@[simp] theorem State.setRoundRobin_table (v : Port) : (s.setRoundRobin v).table = s.table := rfl
@[simp] theorem State.setRoundRobin_map (v : Port) : (s.setRoundRobin v).map = s.map := rfl
@[simp] theorem State.setRoundRobin_buffer (v : Port) : (s.setRoundRobin v).buffer = s.buffer := rfl
@[simp] theorem State.setRoundRobin_issued (v : Port) : (s.setRoundRobin v).issued = s.issued := rfl
@[simp] theorem State.setRoundRobin_roundRobin (v : Port) : (s.setRoundRobin v).roundRobin = v := rfl
@[simp] theorem State.setRoundRobin_ctl (v : Port) : (s.setRoundRobin v).ctl = s.ctl := rfl
@[simp] theorem State.setRoundRobin_lock (v : Port) : (s.setRoundRobin v).lock = s.lock := rfl
@[simp] theorem State.setRoundRobin_seqs (v : Port) : (s.setRoundRobin v).seqs = s.seqs := rfl
@[simp] theorem State.setRoundRobin_ring (v : Port) : (s.setRoundRobin v).ring = s.ring := rfl
@[simp] theorem State.setRoundRobin_staged (v : Port) : (s.setRoundRobin v).staged = s.staged := rfl
@[simp] theorem State.setRoundRobin_producer (v : Port) : (s.setRoundRobin v).producer = s.producer := rfl
@[simp] theorem State.setRoundRobin_consumer (v : Port) : (s.setRoundRobin v).consumer = s.consumer := rfl
@[simp] theorem State.setRoundRobin_interval (v : Port) : (s.setRoundRobin v).interval = s.interval := rfl
@[simp] theorem State.setRoundRobin_nextExpiry (v : Port) : (s.setRoundRobin v).nextExpiry = s.nextExpiry := rfl
@[simp] theorem State.setRoundRobin_opState (v : Port) : (s.setRoundRobin v).opState = s.opState := rfl
@[simp] theorem State.setRoundRobin_command (v : Port) : (s.setRoundRobin v).command = s.command := rfl
@[simp] theorem State.setRoundRobin_reporting (v : Port) : (s.setRoundRobin v).reporting = s.reporting := rfl
@[simp] theorem State.setRoundRobin_statusChanged (v : Port) : (s.setRoundRobin v).statusChanged = s.statusChanged := rfl
@[simp] theorem State.setRoundRobin_causes (v : Port) : (s.setRoundRobin v).causes = s.causes := rfl
@[simp] theorem State.setRoundRobin_enables (v : Port) : (s.setRoundRobin v).enables = s.enables := rfl
@[simp] theorem State.setRoundRobin_irqAsserted (v : Port) : (s.setRoundRobin v).irqAsserted = s.irqAsserted := rfl
@[simp] theorem State.setRoundRobin_now (v : Port) : (s.setRoundRobin v).now = s.now := rfl
@[simp] theorem State.setRoundRobin_anc (v : Port) : (s.setRoundRobin v).anc = s.anc := rfl
@[simp] theorem State.setRoundRobin_div (v : Port) : (s.setRoundRobin v).div = s.div := rfl
@[simp] theorem State.setRoundRobin_inReset (v : Port) : (s.setRoundRobin v).inReset = s.inReset := rfl
@[simp] theorem State.setRoundRobin_freeCounter (v : Port) : (s.setRoundRobin v).freeCounter = s.freeCounter := rfl
@[simp] theorem State.setRoundRobin_pending (v : Port) : (s.setRoundRobin v).pending = s.pending := rfl
@[simp] theorem State.setCtl_ports (v : List CtlRequest) : (s.setCtl v).ports = s.ports := rfl
@[simp] theorem State.setCtl_engines (v : List CtlRequest) : (s.setCtl v).engines = s.engines := rfl
@[simp] theorem State.setCtl_p0LockLimit (v : List CtlRequest) : (s.setCtl v).p0LockLimit = s.p0LockLimit := rfl
@[simp] theorem State.setCtl_fetches (v : List CtlRequest) : (s.setCtl v).fetches = s.fetches := rfl
@[simp] theorem State.setCtl_table (v : List CtlRequest) : (s.setCtl v).table = s.table := rfl
@[simp] theorem State.setCtl_map (v : List CtlRequest) : (s.setCtl v).map = s.map := rfl
@[simp] theorem State.setCtl_buffer (v : List CtlRequest) : (s.setCtl v).buffer = s.buffer := rfl
@[simp] theorem State.setCtl_issued (v : List CtlRequest) : (s.setCtl v).issued = s.issued := rfl
@[simp] theorem State.setCtl_roundRobin (v : List CtlRequest) : (s.setCtl v).roundRobin = s.roundRobin := rfl
@[simp] theorem State.setCtl_ctl (v : List CtlRequest) : (s.setCtl v).ctl = v := rfl
@[simp] theorem State.setCtl_lock (v : List CtlRequest) : (s.setCtl v).lock = s.lock := rfl
@[simp] theorem State.setCtl_seqs (v : List CtlRequest) : (s.setCtl v).seqs = s.seqs := rfl
@[simp] theorem State.setCtl_ring (v : List CtlRequest) : (s.setCtl v).ring = s.ring := rfl
@[simp] theorem State.setCtl_staged (v : List CtlRequest) : (s.setCtl v).staged = s.staged := rfl
@[simp] theorem State.setCtl_producer (v : List CtlRequest) : (s.setCtl v).producer = s.producer := rfl
@[simp] theorem State.setCtl_consumer (v : List CtlRequest) : (s.setCtl v).consumer = s.consumer := rfl
@[simp] theorem State.setCtl_interval (v : List CtlRequest) : (s.setCtl v).interval = s.interval := rfl
@[simp] theorem State.setCtl_nextExpiry (v : List CtlRequest) : (s.setCtl v).nextExpiry = s.nextExpiry := rfl
@[simp] theorem State.setCtl_opState (v : List CtlRequest) : (s.setCtl v).opState = s.opState := rfl
@[simp] theorem State.setCtl_command (v : List CtlRequest) : (s.setCtl v).command = s.command := rfl
@[simp] theorem State.setCtl_reporting (v : List CtlRequest) : (s.setCtl v).reporting = s.reporting := rfl
@[simp] theorem State.setCtl_statusChanged (v : List CtlRequest) : (s.setCtl v).statusChanged = s.statusChanged := rfl
@[simp] theorem State.setCtl_causes (v : List CtlRequest) : (s.setCtl v).causes = s.causes := rfl
@[simp] theorem State.setCtl_enables (v : List CtlRequest) : (s.setCtl v).enables = s.enables := rfl
@[simp] theorem State.setCtl_irqAsserted (v : List CtlRequest) : (s.setCtl v).irqAsserted = s.irqAsserted := rfl
@[simp] theorem State.setCtl_now (v : List CtlRequest) : (s.setCtl v).now = s.now := rfl
@[simp] theorem State.setCtl_anc (v : List CtlRequest) : (s.setCtl v).anc = s.anc := rfl
@[simp] theorem State.setCtl_div (v : List CtlRequest) : (s.setCtl v).div = s.div := rfl
@[simp] theorem State.setCtl_inReset (v : List CtlRequest) : (s.setCtl v).inReset = s.inReset := rfl
@[simp] theorem State.setCtl_freeCounter (v : List CtlRequest) : (s.setCtl v).freeCounter = s.freeCounter := rfl
@[simp] theorem State.setCtl_pending (v : List CtlRequest) : (s.setCtl v).pending = s.pending := rfl
@[simp] theorem State.setLock_ports (v : Option Lock) : (s.setLock v).ports = s.ports := rfl
@[simp] theorem State.setLock_engines (v : Option Lock) : (s.setLock v).engines = s.engines := rfl
@[simp] theorem State.setLock_p0LockLimit (v : Option Lock) : (s.setLock v).p0LockLimit = s.p0LockLimit := rfl
@[simp] theorem State.setLock_fetches (v : Option Lock) : (s.setLock v).fetches = s.fetches := rfl
@[simp] theorem State.setLock_table (v : Option Lock) : (s.setLock v).table = s.table := rfl
@[simp] theorem State.setLock_map (v : Option Lock) : (s.setLock v).map = s.map := rfl
@[simp] theorem State.setLock_buffer (v : Option Lock) : (s.setLock v).buffer = s.buffer := rfl
@[simp] theorem State.setLock_issued (v : Option Lock) : (s.setLock v).issued = s.issued := rfl
@[simp] theorem State.setLock_roundRobin (v : Option Lock) : (s.setLock v).roundRobin = s.roundRobin := rfl
@[simp] theorem State.setLock_ctl (v : Option Lock) : (s.setLock v).ctl = s.ctl := rfl
@[simp] theorem State.setLock_lock (v : Option Lock) : (s.setLock v).lock = v := rfl
@[simp] theorem State.setLock_seqs (v : Option Lock) : (s.setLock v).seqs = s.seqs := rfl
@[simp] theorem State.setLock_ring (v : Option Lock) : (s.setLock v).ring = s.ring := rfl
@[simp] theorem State.setLock_staged (v : Option Lock) : (s.setLock v).staged = s.staged := rfl
@[simp] theorem State.setLock_producer (v : Option Lock) : (s.setLock v).producer = s.producer := rfl
@[simp] theorem State.setLock_consumer (v : Option Lock) : (s.setLock v).consumer = s.consumer := rfl
@[simp] theorem State.setLock_interval (v : Option Lock) : (s.setLock v).interval = s.interval := rfl
@[simp] theorem State.setLock_nextExpiry (v : Option Lock) : (s.setLock v).nextExpiry = s.nextExpiry := rfl
@[simp] theorem State.setLock_opState (v : Option Lock) : (s.setLock v).opState = s.opState := rfl
@[simp] theorem State.setLock_command (v : Option Lock) : (s.setLock v).command = s.command := rfl
@[simp] theorem State.setLock_reporting (v : Option Lock) : (s.setLock v).reporting = s.reporting := rfl
@[simp] theorem State.setLock_statusChanged (v : Option Lock) : (s.setLock v).statusChanged = s.statusChanged := rfl
@[simp] theorem State.setLock_causes (v : Option Lock) : (s.setLock v).causes = s.causes := rfl
@[simp] theorem State.setLock_enables (v : Option Lock) : (s.setLock v).enables = s.enables := rfl
@[simp] theorem State.setLock_irqAsserted (v : Option Lock) : (s.setLock v).irqAsserted = s.irqAsserted := rfl
@[simp] theorem State.setLock_now (v : Option Lock) : (s.setLock v).now = s.now := rfl
@[simp] theorem State.setLock_anc (v : Option Lock) : (s.setLock v).anc = s.anc := rfl
@[simp] theorem State.setLock_div (v : Option Lock) : (s.setLock v).div = s.div := rfl
@[simp] theorem State.setLock_inReset (v : Option Lock) : (s.setLock v).inReset = s.inReset := rfl
@[simp] theorem State.setLock_freeCounter (v : Option Lock) : (s.setLock v).freeCounter = s.freeCounter := rfl
@[simp] theorem State.setLock_pending (v : Option Lock) : (s.setLock v).pending = s.pending := rfl
@[simp] theorem State.setSeqs_ports (v : PerPort Sequence) : (s.setSeqs v).ports = s.ports := rfl
@[simp] theorem State.setSeqs_engines (v : PerPort Sequence) : (s.setSeqs v).engines = s.engines := rfl
@[simp] theorem State.setSeqs_p0LockLimit (v : PerPort Sequence) : (s.setSeqs v).p0LockLimit = s.p0LockLimit := rfl
@[simp] theorem State.setSeqs_fetches (v : PerPort Sequence) : (s.setSeqs v).fetches = s.fetches := rfl
@[simp] theorem State.setSeqs_table (v : PerPort Sequence) : (s.setSeqs v).table = s.table := rfl
@[simp] theorem State.setSeqs_map (v : PerPort Sequence) : (s.setSeqs v).map = s.map := rfl
@[simp] theorem State.setSeqs_buffer (v : PerPort Sequence) : (s.setSeqs v).buffer = s.buffer := rfl
@[simp] theorem State.setSeqs_issued (v : PerPort Sequence) : (s.setSeqs v).issued = s.issued := rfl
@[simp] theorem State.setSeqs_roundRobin (v : PerPort Sequence) : (s.setSeqs v).roundRobin = s.roundRobin := rfl
@[simp] theorem State.setSeqs_ctl (v : PerPort Sequence) : (s.setSeqs v).ctl = s.ctl := rfl
@[simp] theorem State.setSeqs_lock (v : PerPort Sequence) : (s.setSeqs v).lock = s.lock := rfl
@[simp] theorem State.setSeqs_seqs (v : PerPort Sequence) : (s.setSeqs v).seqs = v := rfl
@[simp] theorem State.setSeqs_ring (v : PerPort Sequence) : (s.setSeqs v).ring = s.ring := rfl
@[simp] theorem State.setSeqs_staged (v : PerPort Sequence) : (s.setSeqs v).staged = s.staged := rfl
@[simp] theorem State.setSeqs_producer (v : PerPort Sequence) : (s.setSeqs v).producer = s.producer := rfl
@[simp] theorem State.setSeqs_consumer (v : PerPort Sequence) : (s.setSeqs v).consumer = s.consumer := rfl
@[simp] theorem State.setSeqs_interval (v : PerPort Sequence) : (s.setSeqs v).interval = s.interval := rfl
@[simp] theorem State.setSeqs_nextExpiry (v : PerPort Sequence) : (s.setSeqs v).nextExpiry = s.nextExpiry := rfl
@[simp] theorem State.setSeqs_opState (v : PerPort Sequence) : (s.setSeqs v).opState = s.opState := rfl
@[simp] theorem State.setSeqs_command (v : PerPort Sequence) : (s.setSeqs v).command = s.command := rfl
@[simp] theorem State.setSeqs_reporting (v : PerPort Sequence) : (s.setSeqs v).reporting = s.reporting := rfl
@[simp] theorem State.setSeqs_statusChanged (v : PerPort Sequence) : (s.setSeqs v).statusChanged = s.statusChanged := rfl
@[simp] theorem State.setSeqs_causes (v : PerPort Sequence) : (s.setSeqs v).causes = s.causes := rfl
@[simp] theorem State.setSeqs_enables (v : PerPort Sequence) : (s.setSeqs v).enables = s.enables := rfl
@[simp] theorem State.setSeqs_irqAsserted (v : PerPort Sequence) : (s.setSeqs v).irqAsserted = s.irqAsserted := rfl
@[simp] theorem State.setSeqs_now (v : PerPort Sequence) : (s.setSeqs v).now = s.now := rfl
@[simp] theorem State.setSeqs_anc (v : PerPort Sequence) : (s.setSeqs v).anc = s.anc := rfl
@[simp] theorem State.setSeqs_div (v : PerPort Sequence) : (s.setSeqs v).div = s.div := rfl
@[simp] theorem State.setSeqs_inReset (v : PerPort Sequence) : (s.setSeqs v).inReset = s.inReset := rfl
@[simp] theorem State.setSeqs_freeCounter (v : PerPort Sequence) : (s.setSeqs v).freeCounter = s.freeCounter := rfl
@[simp] theorem State.setSeqs_pending (v : PerPort Sequence) : (s.setSeqs v).pending = s.pending := rfl
@[simp] theorem State.setRing_ports (v : Option RingGeometry) : (s.setRing v).ports = s.ports := rfl
@[simp] theorem State.setRing_engines (v : Option RingGeometry) : (s.setRing v).engines = s.engines := rfl
@[simp] theorem State.setRing_p0LockLimit (v : Option RingGeometry) : (s.setRing v).p0LockLimit = s.p0LockLimit := rfl
@[simp] theorem State.setRing_fetches (v : Option RingGeometry) : (s.setRing v).fetches = s.fetches := rfl
@[simp] theorem State.setRing_table (v : Option RingGeometry) : (s.setRing v).table = s.table := rfl
@[simp] theorem State.setRing_map (v : Option RingGeometry) : (s.setRing v).map = s.map := rfl
@[simp] theorem State.setRing_buffer (v : Option RingGeometry) : (s.setRing v).buffer = s.buffer := rfl
@[simp] theorem State.setRing_issued (v : Option RingGeometry) : (s.setRing v).issued = s.issued := rfl
@[simp] theorem State.setRing_roundRobin (v : Option RingGeometry) : (s.setRing v).roundRobin = s.roundRobin := rfl
@[simp] theorem State.setRing_ctl (v : Option RingGeometry) : (s.setRing v).ctl = s.ctl := rfl
@[simp] theorem State.setRing_lock (v : Option RingGeometry) : (s.setRing v).lock = s.lock := rfl
@[simp] theorem State.setRing_seqs (v : Option RingGeometry) : (s.setRing v).seqs = s.seqs := rfl
@[simp] theorem State.setRing_ring (v : Option RingGeometry) : (s.setRing v).ring = v := rfl
@[simp] theorem State.setRing_staged (v : Option RingGeometry) : (s.setRing v).staged = s.staged := rfl
@[simp] theorem State.setRing_producer (v : Option RingGeometry) : (s.setRing v).producer = s.producer := rfl
@[simp] theorem State.setRing_consumer (v : Option RingGeometry) : (s.setRing v).consumer = s.consumer := rfl
@[simp] theorem State.setRing_interval (v : Option RingGeometry) : (s.setRing v).interval = s.interval := rfl
@[simp] theorem State.setRing_nextExpiry (v : Option RingGeometry) : (s.setRing v).nextExpiry = s.nextExpiry := rfl
@[simp] theorem State.setRing_opState (v : Option RingGeometry) : (s.setRing v).opState = s.opState := rfl
@[simp] theorem State.setRing_command (v : Option RingGeometry) : (s.setRing v).command = s.command := rfl
@[simp] theorem State.setRing_reporting (v : Option RingGeometry) : (s.setRing v).reporting = s.reporting := rfl
@[simp] theorem State.setRing_statusChanged (v : Option RingGeometry) : (s.setRing v).statusChanged = s.statusChanged := rfl
@[simp] theorem State.setRing_causes (v : Option RingGeometry) : (s.setRing v).causes = s.causes := rfl
@[simp] theorem State.setRing_enables (v : Option RingGeometry) : (s.setRing v).enables = s.enables := rfl
@[simp] theorem State.setRing_irqAsserted (v : Option RingGeometry) : (s.setRing v).irqAsserted = s.irqAsserted := rfl
@[simp] theorem State.setRing_now (v : Option RingGeometry) : (s.setRing v).now = s.now := rfl
@[simp] theorem State.setRing_anc (v : Option RingGeometry) : (s.setRing v).anc = s.anc := rfl
@[simp] theorem State.setRing_div (v : Option RingGeometry) : (s.setRing v).div = s.div := rfl
@[simp] theorem State.setRing_inReset (v : Option RingGeometry) : (s.setRing v).inReset = s.inReset := rfl
@[simp] theorem State.setRing_freeCounter (v : Option RingGeometry) : (s.setRing v).freeCounter = s.freeCounter := rfl
@[simp] theorem State.setRing_pending (v : Option RingGeometry) : (s.setRing v).pending = s.pending := rfl
@[simp] theorem State.setStaged_ports (v : List Staged) : (s.setStaged v).ports = s.ports := rfl
@[simp] theorem State.setStaged_engines (v : List Staged) : (s.setStaged v).engines = s.engines := rfl
@[simp] theorem State.setStaged_p0LockLimit (v : List Staged) : (s.setStaged v).p0LockLimit = s.p0LockLimit := rfl
@[simp] theorem State.setStaged_fetches (v : List Staged) : (s.setStaged v).fetches = s.fetches := rfl
@[simp] theorem State.setStaged_table (v : List Staged) : (s.setStaged v).table = s.table := rfl
@[simp] theorem State.setStaged_map (v : List Staged) : (s.setStaged v).map = s.map := rfl
@[simp] theorem State.setStaged_buffer (v : List Staged) : (s.setStaged v).buffer = s.buffer := rfl
@[simp] theorem State.setStaged_issued (v : List Staged) : (s.setStaged v).issued = s.issued := rfl
@[simp] theorem State.setStaged_roundRobin (v : List Staged) : (s.setStaged v).roundRobin = s.roundRobin := rfl
@[simp] theorem State.setStaged_ctl (v : List Staged) : (s.setStaged v).ctl = s.ctl := rfl
@[simp] theorem State.setStaged_lock (v : List Staged) : (s.setStaged v).lock = s.lock := rfl
@[simp] theorem State.setStaged_seqs (v : List Staged) : (s.setStaged v).seqs = s.seqs := rfl
@[simp] theorem State.setStaged_ring (v : List Staged) : (s.setStaged v).ring = s.ring := rfl
@[simp] theorem State.setStaged_staged (v : List Staged) : (s.setStaged v).staged = v := rfl
@[simp] theorem State.setStaged_producer (v : List Staged) : (s.setStaged v).producer = s.producer := rfl
@[simp] theorem State.setStaged_consumer (v : List Staged) : (s.setStaged v).consumer = s.consumer := rfl
@[simp] theorem State.setStaged_interval (v : List Staged) : (s.setStaged v).interval = s.interval := rfl
@[simp] theorem State.setStaged_nextExpiry (v : List Staged) : (s.setStaged v).nextExpiry = s.nextExpiry := rfl
@[simp] theorem State.setStaged_opState (v : List Staged) : (s.setStaged v).opState = s.opState := rfl
@[simp] theorem State.setStaged_command (v : List Staged) : (s.setStaged v).command = s.command := rfl
@[simp] theorem State.setStaged_reporting (v : List Staged) : (s.setStaged v).reporting = s.reporting := rfl
@[simp] theorem State.setStaged_statusChanged (v : List Staged) : (s.setStaged v).statusChanged = s.statusChanged := rfl
@[simp] theorem State.setStaged_causes (v : List Staged) : (s.setStaged v).causes = s.causes := rfl
@[simp] theorem State.setStaged_enables (v : List Staged) : (s.setStaged v).enables = s.enables := rfl
@[simp] theorem State.setStaged_irqAsserted (v : List Staged) : (s.setStaged v).irqAsserted = s.irqAsserted := rfl
@[simp] theorem State.setStaged_now (v : List Staged) : (s.setStaged v).now = s.now := rfl
@[simp] theorem State.setStaged_anc (v : List Staged) : (s.setStaged v).anc = s.anc := rfl
@[simp] theorem State.setStaged_div (v : List Staged) : (s.setStaged v).div = s.div := rfl
@[simp] theorem State.setStaged_inReset (v : List Staged) : (s.setStaged v).inReset = s.inReset := rfl
@[simp] theorem State.setStaged_freeCounter (v : List Staged) : (s.setStaged v).freeCounter = s.freeCounter := rfl
@[simp] theorem State.setStaged_pending (v : List Staged) : (s.setStaged v).pending = s.pending := rfl
@[simp] theorem State.setProducer_ports (v : Nat) : (s.setProducer v).ports = s.ports := rfl
@[simp] theorem State.setProducer_engines (v : Nat) : (s.setProducer v).engines = s.engines := rfl
@[simp] theorem State.setProducer_p0LockLimit (v : Nat) : (s.setProducer v).p0LockLimit = s.p0LockLimit := rfl
@[simp] theorem State.setProducer_fetches (v : Nat) : (s.setProducer v).fetches = s.fetches := rfl
@[simp] theorem State.setProducer_table (v : Nat) : (s.setProducer v).table = s.table := rfl
@[simp] theorem State.setProducer_map (v : Nat) : (s.setProducer v).map = s.map := rfl
@[simp] theorem State.setProducer_buffer (v : Nat) : (s.setProducer v).buffer = s.buffer := rfl
@[simp] theorem State.setProducer_issued (v : Nat) : (s.setProducer v).issued = s.issued := rfl
@[simp] theorem State.setProducer_roundRobin (v : Nat) : (s.setProducer v).roundRobin = s.roundRobin := rfl
@[simp] theorem State.setProducer_ctl (v : Nat) : (s.setProducer v).ctl = s.ctl := rfl
@[simp] theorem State.setProducer_lock (v : Nat) : (s.setProducer v).lock = s.lock := rfl
@[simp] theorem State.setProducer_seqs (v : Nat) : (s.setProducer v).seqs = s.seqs := rfl
@[simp] theorem State.setProducer_ring (v : Nat) : (s.setProducer v).ring = s.ring := rfl
@[simp] theorem State.setProducer_staged (v : Nat) : (s.setProducer v).staged = s.staged := rfl
@[simp] theorem State.setProducer_producer (v : Nat) : (s.setProducer v).producer = v := rfl
@[simp] theorem State.setProducer_consumer (v : Nat) : (s.setProducer v).consumer = s.consumer := rfl
@[simp] theorem State.setProducer_interval (v : Nat) : (s.setProducer v).interval = s.interval := rfl
@[simp] theorem State.setProducer_nextExpiry (v : Nat) : (s.setProducer v).nextExpiry = s.nextExpiry := rfl
@[simp] theorem State.setProducer_opState (v : Nat) : (s.setProducer v).opState = s.opState := rfl
@[simp] theorem State.setProducer_command (v : Nat) : (s.setProducer v).command = s.command := rfl
@[simp] theorem State.setProducer_reporting (v : Nat) : (s.setProducer v).reporting = s.reporting := rfl
@[simp] theorem State.setProducer_statusChanged (v : Nat) : (s.setProducer v).statusChanged = s.statusChanged := rfl
@[simp] theorem State.setProducer_causes (v : Nat) : (s.setProducer v).causes = s.causes := rfl
@[simp] theorem State.setProducer_enables (v : Nat) : (s.setProducer v).enables = s.enables := rfl
@[simp] theorem State.setProducer_irqAsserted (v : Nat) : (s.setProducer v).irqAsserted = s.irqAsserted := rfl
@[simp] theorem State.setProducer_now (v : Nat) : (s.setProducer v).now = s.now := rfl
@[simp] theorem State.setProducer_anc (v : Nat) : (s.setProducer v).anc = s.anc := rfl
@[simp] theorem State.setProducer_div (v : Nat) : (s.setProducer v).div = s.div := rfl
@[simp] theorem State.setProducer_inReset (v : Nat) : (s.setProducer v).inReset = s.inReset := rfl
@[simp] theorem State.setProducer_freeCounter (v : Nat) : (s.setProducer v).freeCounter = s.freeCounter := rfl
@[simp] theorem State.setProducer_pending (v : Nat) : (s.setProducer v).pending = s.pending := rfl
@[simp] theorem State.setConsumer_ports (v : Nat) : (s.setConsumer v).ports = s.ports := rfl
@[simp] theorem State.setConsumer_engines (v : Nat) : (s.setConsumer v).engines = s.engines := rfl
@[simp] theorem State.setConsumer_p0LockLimit (v : Nat) : (s.setConsumer v).p0LockLimit = s.p0LockLimit := rfl
@[simp] theorem State.setConsumer_fetches (v : Nat) : (s.setConsumer v).fetches = s.fetches := rfl
@[simp] theorem State.setConsumer_table (v : Nat) : (s.setConsumer v).table = s.table := rfl
@[simp] theorem State.setConsumer_map (v : Nat) : (s.setConsumer v).map = s.map := rfl
@[simp] theorem State.setConsumer_buffer (v : Nat) : (s.setConsumer v).buffer = s.buffer := rfl
@[simp] theorem State.setConsumer_issued (v : Nat) : (s.setConsumer v).issued = s.issued := rfl
@[simp] theorem State.setConsumer_roundRobin (v : Nat) : (s.setConsumer v).roundRobin = s.roundRobin := rfl
@[simp] theorem State.setConsumer_ctl (v : Nat) : (s.setConsumer v).ctl = s.ctl := rfl
@[simp] theorem State.setConsumer_lock (v : Nat) : (s.setConsumer v).lock = s.lock := rfl
@[simp] theorem State.setConsumer_seqs (v : Nat) : (s.setConsumer v).seqs = s.seqs := rfl
@[simp] theorem State.setConsumer_ring (v : Nat) : (s.setConsumer v).ring = s.ring := rfl
@[simp] theorem State.setConsumer_staged (v : Nat) : (s.setConsumer v).staged = s.staged := rfl
@[simp] theorem State.setConsumer_producer (v : Nat) : (s.setConsumer v).producer = s.producer := rfl
@[simp] theorem State.setConsumer_consumer (v : Nat) : (s.setConsumer v).consumer = v := rfl
@[simp] theorem State.setConsumer_interval (v : Nat) : (s.setConsumer v).interval = s.interval := rfl
@[simp] theorem State.setConsumer_nextExpiry (v : Nat) : (s.setConsumer v).nextExpiry = s.nextExpiry := rfl
@[simp] theorem State.setConsumer_opState (v : Nat) : (s.setConsumer v).opState = s.opState := rfl
@[simp] theorem State.setConsumer_command (v : Nat) : (s.setConsumer v).command = s.command := rfl
@[simp] theorem State.setConsumer_reporting (v : Nat) : (s.setConsumer v).reporting = s.reporting := rfl
@[simp] theorem State.setConsumer_statusChanged (v : Nat) : (s.setConsumer v).statusChanged = s.statusChanged := rfl
@[simp] theorem State.setConsumer_causes (v : Nat) : (s.setConsumer v).causes = s.causes := rfl
@[simp] theorem State.setConsumer_enables (v : Nat) : (s.setConsumer v).enables = s.enables := rfl
@[simp] theorem State.setConsumer_irqAsserted (v : Nat) : (s.setConsumer v).irqAsserted = s.irqAsserted := rfl
@[simp] theorem State.setConsumer_now (v : Nat) : (s.setConsumer v).now = s.now := rfl
@[simp] theorem State.setConsumer_anc (v : Nat) : (s.setConsumer v).anc = s.anc := rfl
@[simp] theorem State.setConsumer_div (v : Nat) : (s.setConsumer v).div = s.div := rfl
@[simp] theorem State.setConsumer_inReset (v : Nat) : (s.setConsumer v).inReset = s.inReset := rfl
@[simp] theorem State.setConsumer_freeCounter (v : Nat) : (s.setConsumer v).freeCounter = s.freeCounter := rfl
@[simp] theorem State.setConsumer_pending (v : Nat) : (s.setConsumer v).pending = s.pending := rfl
@[simp] theorem State.setInterval_ports (v : Micros) : (s.setInterval v).ports = s.ports := rfl
@[simp] theorem State.setInterval_engines (v : Micros) : (s.setInterval v).engines = s.engines := rfl
@[simp] theorem State.setInterval_p0LockLimit (v : Micros) : (s.setInterval v).p0LockLimit = s.p0LockLimit := rfl
@[simp] theorem State.setInterval_fetches (v : Micros) : (s.setInterval v).fetches = s.fetches := rfl
@[simp] theorem State.setInterval_table (v : Micros) : (s.setInterval v).table = s.table := rfl
@[simp] theorem State.setInterval_map (v : Micros) : (s.setInterval v).map = s.map := rfl
@[simp] theorem State.setInterval_buffer (v : Micros) : (s.setInterval v).buffer = s.buffer := rfl
@[simp] theorem State.setInterval_issued (v : Micros) : (s.setInterval v).issued = s.issued := rfl
@[simp] theorem State.setInterval_roundRobin (v : Micros) : (s.setInterval v).roundRobin = s.roundRobin := rfl
@[simp] theorem State.setInterval_ctl (v : Micros) : (s.setInterval v).ctl = s.ctl := rfl
@[simp] theorem State.setInterval_lock (v : Micros) : (s.setInterval v).lock = s.lock := rfl
@[simp] theorem State.setInterval_seqs (v : Micros) : (s.setInterval v).seqs = s.seqs := rfl
@[simp] theorem State.setInterval_ring (v : Micros) : (s.setInterval v).ring = s.ring := rfl
@[simp] theorem State.setInterval_staged (v : Micros) : (s.setInterval v).staged = s.staged := rfl
@[simp] theorem State.setInterval_producer (v : Micros) : (s.setInterval v).producer = s.producer := rfl
@[simp] theorem State.setInterval_consumer (v : Micros) : (s.setInterval v).consumer = s.consumer := rfl
@[simp] theorem State.setInterval_interval (v : Micros) : (s.setInterval v).interval = v := rfl
@[simp] theorem State.setInterval_nextExpiry (v : Micros) : (s.setInterval v).nextExpiry = s.nextExpiry := rfl
@[simp] theorem State.setInterval_opState (v : Micros) : (s.setInterval v).opState = s.opState := rfl
@[simp] theorem State.setInterval_command (v : Micros) : (s.setInterval v).command = s.command := rfl
@[simp] theorem State.setInterval_reporting (v : Micros) : (s.setInterval v).reporting = s.reporting := rfl
@[simp] theorem State.setInterval_statusChanged (v : Micros) : (s.setInterval v).statusChanged = s.statusChanged := rfl
@[simp] theorem State.setInterval_causes (v : Micros) : (s.setInterval v).causes = s.causes := rfl
@[simp] theorem State.setInterval_enables (v : Micros) : (s.setInterval v).enables = s.enables := rfl
@[simp] theorem State.setInterval_irqAsserted (v : Micros) : (s.setInterval v).irqAsserted = s.irqAsserted := rfl
@[simp] theorem State.setInterval_now (v : Micros) : (s.setInterval v).now = s.now := rfl
@[simp] theorem State.setInterval_anc (v : Micros) : (s.setInterval v).anc = s.anc := rfl
@[simp] theorem State.setInterval_div (v : Micros) : (s.setInterval v).div = s.div := rfl
@[simp] theorem State.setInterval_inReset (v : Micros) : (s.setInterval v).inReset = s.inReset := rfl
@[simp] theorem State.setInterval_freeCounter (v : Micros) : (s.setInterval v).freeCounter = s.freeCounter := rfl
@[simp] theorem State.setInterval_pending (v : Micros) : (s.setInterval v).pending = s.pending := rfl
@[simp] theorem State.setNextExpiry_ports (v : Option Micros) : (s.setNextExpiry v).ports = s.ports := rfl
@[simp] theorem State.setNextExpiry_engines (v : Option Micros) : (s.setNextExpiry v).engines = s.engines := rfl
@[simp] theorem State.setNextExpiry_p0LockLimit (v : Option Micros) : (s.setNextExpiry v).p0LockLimit = s.p0LockLimit := rfl
@[simp] theorem State.setNextExpiry_fetches (v : Option Micros) : (s.setNextExpiry v).fetches = s.fetches := rfl
@[simp] theorem State.setNextExpiry_table (v : Option Micros) : (s.setNextExpiry v).table = s.table := rfl
@[simp] theorem State.setNextExpiry_map (v : Option Micros) : (s.setNextExpiry v).map = s.map := rfl
@[simp] theorem State.setNextExpiry_buffer (v : Option Micros) : (s.setNextExpiry v).buffer = s.buffer := rfl
@[simp] theorem State.setNextExpiry_issued (v : Option Micros) : (s.setNextExpiry v).issued = s.issued := rfl
@[simp] theorem State.setNextExpiry_roundRobin (v : Option Micros) : (s.setNextExpiry v).roundRobin = s.roundRobin := rfl
@[simp] theorem State.setNextExpiry_ctl (v : Option Micros) : (s.setNextExpiry v).ctl = s.ctl := rfl
@[simp] theorem State.setNextExpiry_lock (v : Option Micros) : (s.setNextExpiry v).lock = s.lock := rfl
@[simp] theorem State.setNextExpiry_seqs (v : Option Micros) : (s.setNextExpiry v).seqs = s.seqs := rfl
@[simp] theorem State.setNextExpiry_ring (v : Option Micros) : (s.setNextExpiry v).ring = s.ring := rfl
@[simp] theorem State.setNextExpiry_staged (v : Option Micros) : (s.setNextExpiry v).staged = s.staged := rfl
@[simp] theorem State.setNextExpiry_producer (v : Option Micros) : (s.setNextExpiry v).producer = s.producer := rfl
@[simp] theorem State.setNextExpiry_consumer (v : Option Micros) : (s.setNextExpiry v).consumer = s.consumer := rfl
@[simp] theorem State.setNextExpiry_interval (v : Option Micros) : (s.setNextExpiry v).interval = s.interval := rfl
@[simp] theorem State.setNextExpiry_nextExpiry (v : Option Micros) : (s.setNextExpiry v).nextExpiry = v := rfl
@[simp] theorem State.setNextExpiry_opState (v : Option Micros) : (s.setNextExpiry v).opState = s.opState := rfl
@[simp] theorem State.setNextExpiry_command (v : Option Micros) : (s.setNextExpiry v).command = s.command := rfl
@[simp] theorem State.setNextExpiry_reporting (v : Option Micros) : (s.setNextExpiry v).reporting = s.reporting := rfl
@[simp] theorem State.setNextExpiry_statusChanged (v : Option Micros) : (s.setNextExpiry v).statusChanged = s.statusChanged := rfl
@[simp] theorem State.setNextExpiry_causes (v : Option Micros) : (s.setNextExpiry v).causes = s.causes := rfl
@[simp] theorem State.setNextExpiry_enables (v : Option Micros) : (s.setNextExpiry v).enables = s.enables := rfl
@[simp] theorem State.setNextExpiry_irqAsserted (v : Option Micros) : (s.setNextExpiry v).irqAsserted = s.irqAsserted := rfl
@[simp] theorem State.setNextExpiry_now (v : Option Micros) : (s.setNextExpiry v).now = s.now := rfl
@[simp] theorem State.setNextExpiry_anc (v : Option Micros) : (s.setNextExpiry v).anc = s.anc := rfl
@[simp] theorem State.setNextExpiry_div (v : Option Micros) : (s.setNextExpiry v).div = s.div := rfl
@[simp] theorem State.setNextExpiry_inReset (v : Option Micros) : (s.setNextExpiry v).inReset = s.inReset := rfl
@[simp] theorem State.setNextExpiry_freeCounter (v : Option Micros) : (s.setNextExpiry v).freeCounter = s.freeCounter := rfl
@[simp] theorem State.setNextExpiry_pending (v : Option Micros) : (s.setNextExpiry v).pending = s.pending := rfl
@[simp] theorem State.setOpState_ports (v : OpState) : (s.setOpState v).ports = s.ports := rfl
@[simp] theorem State.setOpState_engines (v : OpState) : (s.setOpState v).engines = s.engines := rfl
@[simp] theorem State.setOpState_p0LockLimit (v : OpState) : (s.setOpState v).p0LockLimit = s.p0LockLimit := rfl
@[simp] theorem State.setOpState_fetches (v : OpState) : (s.setOpState v).fetches = s.fetches := rfl
@[simp] theorem State.setOpState_table (v : OpState) : (s.setOpState v).table = s.table := rfl
@[simp] theorem State.setOpState_map (v : OpState) : (s.setOpState v).map = s.map := rfl
@[simp] theorem State.setOpState_buffer (v : OpState) : (s.setOpState v).buffer = s.buffer := rfl
@[simp] theorem State.setOpState_issued (v : OpState) : (s.setOpState v).issued = s.issued := rfl
@[simp] theorem State.setOpState_roundRobin (v : OpState) : (s.setOpState v).roundRobin = s.roundRobin := rfl
@[simp] theorem State.setOpState_ctl (v : OpState) : (s.setOpState v).ctl = s.ctl := rfl
@[simp] theorem State.setOpState_lock (v : OpState) : (s.setOpState v).lock = s.lock := rfl
@[simp] theorem State.setOpState_seqs (v : OpState) : (s.setOpState v).seqs = s.seqs := rfl
@[simp] theorem State.setOpState_ring (v : OpState) : (s.setOpState v).ring = s.ring := rfl
@[simp] theorem State.setOpState_staged (v : OpState) : (s.setOpState v).staged = s.staged := rfl
@[simp] theorem State.setOpState_producer (v : OpState) : (s.setOpState v).producer = s.producer := rfl
@[simp] theorem State.setOpState_consumer (v : OpState) : (s.setOpState v).consumer = s.consumer := rfl
@[simp] theorem State.setOpState_interval (v : OpState) : (s.setOpState v).interval = s.interval := rfl
@[simp] theorem State.setOpState_nextExpiry (v : OpState) : (s.setOpState v).nextExpiry = s.nextExpiry := rfl
@[simp] theorem State.setOpState_opState (v : OpState) : (s.setOpState v).opState = v := rfl
@[simp] theorem State.setOpState_command (v : OpState) : (s.setOpState v).command = s.command := rfl
@[simp] theorem State.setOpState_reporting (v : OpState) : (s.setOpState v).reporting = s.reporting := rfl
@[simp] theorem State.setOpState_statusChanged (v : OpState) : (s.setOpState v).statusChanged = s.statusChanged := rfl
@[simp] theorem State.setOpState_causes (v : OpState) : (s.setOpState v).causes = s.causes := rfl
@[simp] theorem State.setOpState_enables (v : OpState) : (s.setOpState v).enables = s.enables := rfl
@[simp] theorem State.setOpState_irqAsserted (v : OpState) : (s.setOpState v).irqAsserted = s.irqAsserted := rfl
@[simp] theorem State.setOpState_now (v : OpState) : (s.setOpState v).now = s.now := rfl
@[simp] theorem State.setOpState_anc (v : OpState) : (s.setOpState v).anc = s.anc := rfl
@[simp] theorem State.setOpState_div (v : OpState) : (s.setOpState v).div = s.div := rfl
@[simp] theorem State.setOpState_inReset (v : OpState) : (s.setOpState v).inReset = s.inReset := rfl
@[simp] theorem State.setOpState_freeCounter (v : OpState) : (s.setOpState v).freeCounter = s.freeCounter := rfl
@[simp] theorem State.setOpState_pending (v : OpState) : (s.setOpState v).pending = s.pending := rfl
@[simp] theorem State.setCommand_ports (v : Option Command) : (s.setCommand v).ports = s.ports := rfl
@[simp] theorem State.setCommand_engines (v : Option Command) : (s.setCommand v).engines = s.engines := rfl
@[simp] theorem State.setCommand_p0LockLimit (v : Option Command) : (s.setCommand v).p0LockLimit = s.p0LockLimit := rfl
@[simp] theorem State.setCommand_fetches (v : Option Command) : (s.setCommand v).fetches = s.fetches := rfl
@[simp] theorem State.setCommand_table (v : Option Command) : (s.setCommand v).table = s.table := rfl
@[simp] theorem State.setCommand_map (v : Option Command) : (s.setCommand v).map = s.map := rfl
@[simp] theorem State.setCommand_buffer (v : Option Command) : (s.setCommand v).buffer = s.buffer := rfl
@[simp] theorem State.setCommand_issued (v : Option Command) : (s.setCommand v).issued = s.issued := rfl
@[simp] theorem State.setCommand_roundRobin (v : Option Command) : (s.setCommand v).roundRobin = s.roundRobin := rfl
@[simp] theorem State.setCommand_ctl (v : Option Command) : (s.setCommand v).ctl = s.ctl := rfl
@[simp] theorem State.setCommand_lock (v : Option Command) : (s.setCommand v).lock = s.lock := rfl
@[simp] theorem State.setCommand_seqs (v : Option Command) : (s.setCommand v).seqs = s.seqs := rfl
@[simp] theorem State.setCommand_ring (v : Option Command) : (s.setCommand v).ring = s.ring := rfl
@[simp] theorem State.setCommand_staged (v : Option Command) : (s.setCommand v).staged = s.staged := rfl
@[simp] theorem State.setCommand_producer (v : Option Command) : (s.setCommand v).producer = s.producer := rfl
@[simp] theorem State.setCommand_consumer (v : Option Command) : (s.setCommand v).consumer = s.consumer := rfl
@[simp] theorem State.setCommand_interval (v : Option Command) : (s.setCommand v).interval = s.interval := rfl
@[simp] theorem State.setCommand_nextExpiry (v : Option Command) : (s.setCommand v).nextExpiry = s.nextExpiry := rfl
@[simp] theorem State.setCommand_opState (v : Option Command) : (s.setCommand v).opState = s.opState := rfl
@[simp] theorem State.setCommand_command (v : Option Command) : (s.setCommand v).command = v := rfl
@[simp] theorem State.setCommand_reporting (v : Option Command) : (s.setCommand v).reporting = s.reporting := rfl
@[simp] theorem State.setCommand_statusChanged (v : Option Command) : (s.setCommand v).statusChanged = s.statusChanged := rfl
@[simp] theorem State.setCommand_causes (v : Option Command) : (s.setCommand v).causes = s.causes := rfl
@[simp] theorem State.setCommand_enables (v : Option Command) : (s.setCommand v).enables = s.enables := rfl
@[simp] theorem State.setCommand_irqAsserted (v : Option Command) : (s.setCommand v).irqAsserted = s.irqAsserted := rfl
@[simp] theorem State.setCommand_now (v : Option Command) : (s.setCommand v).now = s.now := rfl
@[simp] theorem State.setCommand_anc (v : Option Command) : (s.setCommand v).anc = s.anc := rfl
@[simp] theorem State.setCommand_div (v : Option Command) : (s.setCommand v).div = s.div := rfl
@[simp] theorem State.setCommand_inReset (v : Option Command) : (s.setCommand v).inReset = s.inReset := rfl
@[simp] theorem State.setCommand_freeCounter (v : Option Command) : (s.setCommand v).freeCounter = s.freeCounter := rfl
@[simp] theorem State.setCommand_pending (v : Option Command) : (s.setCommand v).pending = s.pending := rfl
@[simp] theorem State.setReporting_ports (v : Bool) : (s.setReporting v).ports = s.ports := rfl
@[simp] theorem State.setReporting_engines (v : Bool) : (s.setReporting v).engines = s.engines := rfl
@[simp] theorem State.setReporting_p0LockLimit (v : Bool) : (s.setReporting v).p0LockLimit = s.p0LockLimit := rfl
@[simp] theorem State.setReporting_fetches (v : Bool) : (s.setReporting v).fetches = s.fetches := rfl
@[simp] theorem State.setReporting_table (v : Bool) : (s.setReporting v).table = s.table := rfl
@[simp] theorem State.setReporting_map (v : Bool) : (s.setReporting v).map = s.map := rfl
@[simp] theorem State.setReporting_buffer (v : Bool) : (s.setReporting v).buffer = s.buffer := rfl
@[simp] theorem State.setReporting_issued (v : Bool) : (s.setReporting v).issued = s.issued := rfl
@[simp] theorem State.setReporting_roundRobin (v : Bool) : (s.setReporting v).roundRobin = s.roundRobin := rfl
@[simp] theorem State.setReporting_ctl (v : Bool) : (s.setReporting v).ctl = s.ctl := rfl
@[simp] theorem State.setReporting_lock (v : Bool) : (s.setReporting v).lock = s.lock := rfl
@[simp] theorem State.setReporting_seqs (v : Bool) : (s.setReporting v).seqs = s.seqs := rfl
@[simp] theorem State.setReporting_ring (v : Bool) : (s.setReporting v).ring = s.ring := rfl
@[simp] theorem State.setReporting_staged (v : Bool) : (s.setReporting v).staged = s.staged := rfl
@[simp] theorem State.setReporting_producer (v : Bool) : (s.setReporting v).producer = s.producer := rfl
@[simp] theorem State.setReporting_consumer (v : Bool) : (s.setReporting v).consumer = s.consumer := rfl
@[simp] theorem State.setReporting_interval (v : Bool) : (s.setReporting v).interval = s.interval := rfl
@[simp] theorem State.setReporting_nextExpiry (v : Bool) : (s.setReporting v).nextExpiry = s.nextExpiry := rfl
@[simp] theorem State.setReporting_opState (v : Bool) : (s.setReporting v).opState = s.opState := rfl
@[simp] theorem State.setReporting_command (v : Bool) : (s.setReporting v).command = s.command := rfl
@[simp] theorem State.setReporting_reporting (v : Bool) : (s.setReporting v).reporting = v := rfl
@[simp] theorem State.setReporting_statusChanged (v : Bool) : (s.setReporting v).statusChanged = s.statusChanged := rfl
@[simp] theorem State.setReporting_causes (v : Bool) : (s.setReporting v).causes = s.causes := rfl
@[simp] theorem State.setReporting_enables (v : Bool) : (s.setReporting v).enables = s.enables := rfl
@[simp] theorem State.setReporting_irqAsserted (v : Bool) : (s.setReporting v).irqAsserted = s.irqAsserted := rfl
@[simp] theorem State.setReporting_now (v : Bool) : (s.setReporting v).now = s.now := rfl
@[simp] theorem State.setReporting_anc (v : Bool) : (s.setReporting v).anc = s.anc := rfl
@[simp] theorem State.setReporting_div (v : Bool) : (s.setReporting v).div = s.div := rfl
@[simp] theorem State.setReporting_inReset (v : Bool) : (s.setReporting v).inReset = s.inReset := rfl
@[simp] theorem State.setReporting_freeCounter (v : Bool) : (s.setReporting v).freeCounter = s.freeCounter := rfl
@[simp] theorem State.setReporting_pending (v : Bool) : (s.setReporting v).pending = s.pending := rfl
@[simp] theorem State.setStatusChanged_ports (v : Bool) : (s.setStatusChanged v).ports = s.ports := rfl
@[simp] theorem State.setStatusChanged_engines (v : Bool) : (s.setStatusChanged v).engines = s.engines := rfl
@[simp] theorem State.setStatusChanged_p0LockLimit (v : Bool) : (s.setStatusChanged v).p0LockLimit = s.p0LockLimit := rfl
@[simp] theorem State.setStatusChanged_fetches (v : Bool) : (s.setStatusChanged v).fetches = s.fetches := rfl
@[simp] theorem State.setStatusChanged_table (v : Bool) : (s.setStatusChanged v).table = s.table := rfl
@[simp] theorem State.setStatusChanged_map (v : Bool) : (s.setStatusChanged v).map = s.map := rfl
@[simp] theorem State.setStatusChanged_buffer (v : Bool) : (s.setStatusChanged v).buffer = s.buffer := rfl
@[simp] theorem State.setStatusChanged_issued (v : Bool) : (s.setStatusChanged v).issued = s.issued := rfl
@[simp] theorem State.setStatusChanged_roundRobin (v : Bool) : (s.setStatusChanged v).roundRobin = s.roundRobin := rfl
@[simp] theorem State.setStatusChanged_ctl (v : Bool) : (s.setStatusChanged v).ctl = s.ctl := rfl
@[simp] theorem State.setStatusChanged_lock (v : Bool) : (s.setStatusChanged v).lock = s.lock := rfl
@[simp] theorem State.setStatusChanged_seqs (v : Bool) : (s.setStatusChanged v).seqs = s.seqs := rfl
@[simp] theorem State.setStatusChanged_ring (v : Bool) : (s.setStatusChanged v).ring = s.ring := rfl
@[simp] theorem State.setStatusChanged_staged (v : Bool) : (s.setStatusChanged v).staged = s.staged := rfl
@[simp] theorem State.setStatusChanged_producer (v : Bool) : (s.setStatusChanged v).producer = s.producer := rfl
@[simp] theorem State.setStatusChanged_consumer (v : Bool) : (s.setStatusChanged v).consumer = s.consumer := rfl
@[simp] theorem State.setStatusChanged_interval (v : Bool) : (s.setStatusChanged v).interval = s.interval := rfl
@[simp] theorem State.setStatusChanged_nextExpiry (v : Bool) : (s.setStatusChanged v).nextExpiry = s.nextExpiry := rfl
@[simp] theorem State.setStatusChanged_opState (v : Bool) : (s.setStatusChanged v).opState = s.opState := rfl
@[simp] theorem State.setStatusChanged_command (v : Bool) : (s.setStatusChanged v).command = s.command := rfl
@[simp] theorem State.setStatusChanged_reporting (v : Bool) : (s.setStatusChanged v).reporting = s.reporting := rfl
@[simp] theorem State.setStatusChanged_statusChanged (v : Bool) : (s.setStatusChanged v).statusChanged = v := rfl
@[simp] theorem State.setStatusChanged_causes (v : Bool) : (s.setStatusChanged v).causes = s.causes := rfl
@[simp] theorem State.setStatusChanged_enables (v : Bool) : (s.setStatusChanged v).enables = s.enables := rfl
@[simp] theorem State.setStatusChanged_irqAsserted (v : Bool) : (s.setStatusChanged v).irqAsserted = s.irqAsserted := rfl
@[simp] theorem State.setStatusChanged_now (v : Bool) : (s.setStatusChanged v).now = s.now := rfl
@[simp] theorem State.setStatusChanged_anc (v : Bool) : (s.setStatusChanged v).anc = s.anc := rfl
@[simp] theorem State.setStatusChanged_div (v : Bool) : (s.setStatusChanged v).div = s.div := rfl
@[simp] theorem State.setStatusChanged_inReset (v : Bool) : (s.setStatusChanged v).inReset = s.inReset := rfl
@[simp] theorem State.setStatusChanged_freeCounter (v : Bool) : (s.setStatusChanged v).freeCounter = s.freeCounter := rfl
@[simp] theorem State.setStatusChanged_pending (v : Bool) : (s.setStatusChanged v).pending = s.pending := rfl
@[simp] theorem State.setCauses_ports (v : Causes) : (s.setCauses v).ports = s.ports := rfl
@[simp] theorem State.setCauses_engines (v : Causes) : (s.setCauses v).engines = s.engines := rfl
@[simp] theorem State.setCauses_p0LockLimit (v : Causes) : (s.setCauses v).p0LockLimit = s.p0LockLimit := rfl
@[simp] theorem State.setCauses_fetches (v : Causes) : (s.setCauses v).fetches = s.fetches := rfl
@[simp] theorem State.setCauses_table (v : Causes) : (s.setCauses v).table = s.table := rfl
@[simp] theorem State.setCauses_map (v : Causes) : (s.setCauses v).map = s.map := rfl
@[simp] theorem State.setCauses_buffer (v : Causes) : (s.setCauses v).buffer = s.buffer := rfl
@[simp] theorem State.setCauses_issued (v : Causes) : (s.setCauses v).issued = s.issued := rfl
@[simp] theorem State.setCauses_roundRobin (v : Causes) : (s.setCauses v).roundRobin = s.roundRobin := rfl
@[simp] theorem State.setCauses_ctl (v : Causes) : (s.setCauses v).ctl = s.ctl := rfl
@[simp] theorem State.setCauses_lock (v : Causes) : (s.setCauses v).lock = s.lock := rfl
@[simp] theorem State.setCauses_seqs (v : Causes) : (s.setCauses v).seqs = s.seqs := rfl
@[simp] theorem State.setCauses_ring (v : Causes) : (s.setCauses v).ring = s.ring := rfl
@[simp] theorem State.setCauses_staged (v : Causes) : (s.setCauses v).staged = s.staged := rfl
@[simp] theorem State.setCauses_producer (v : Causes) : (s.setCauses v).producer = s.producer := rfl
@[simp] theorem State.setCauses_consumer (v : Causes) : (s.setCauses v).consumer = s.consumer := rfl
@[simp] theorem State.setCauses_interval (v : Causes) : (s.setCauses v).interval = s.interval := rfl
@[simp] theorem State.setCauses_nextExpiry (v : Causes) : (s.setCauses v).nextExpiry = s.nextExpiry := rfl
@[simp] theorem State.setCauses_opState (v : Causes) : (s.setCauses v).opState = s.opState := rfl
@[simp] theorem State.setCauses_command (v : Causes) : (s.setCauses v).command = s.command := rfl
@[simp] theorem State.setCauses_reporting (v : Causes) : (s.setCauses v).reporting = s.reporting := rfl
@[simp] theorem State.setCauses_statusChanged (v : Causes) : (s.setCauses v).statusChanged = s.statusChanged := rfl
@[simp] theorem State.setCauses_causes (v : Causes) : (s.setCauses v).causes = v := rfl
@[simp] theorem State.setCauses_enables (v : Causes) : (s.setCauses v).enables = s.enables := rfl
@[simp] theorem State.setCauses_irqAsserted (v : Causes) : (s.setCauses v).irqAsserted = s.irqAsserted := rfl
@[simp] theorem State.setCauses_now (v : Causes) : (s.setCauses v).now = s.now := rfl
@[simp] theorem State.setCauses_anc (v : Causes) : (s.setCauses v).anc = s.anc := rfl
@[simp] theorem State.setCauses_div (v : Causes) : (s.setCauses v).div = s.div := rfl
@[simp] theorem State.setCauses_inReset (v : Causes) : (s.setCauses v).inReset = s.inReset := rfl
@[simp] theorem State.setCauses_freeCounter (v : Causes) : (s.setCauses v).freeCounter = s.freeCounter := rfl
@[simp] theorem State.setCauses_pending (v : Causes) : (s.setCauses v).pending = s.pending := rfl
@[simp] theorem State.setEnables_ports (v : Enables) : (s.setEnables v).ports = s.ports := rfl
@[simp] theorem State.setEnables_engines (v : Enables) : (s.setEnables v).engines = s.engines := rfl
@[simp] theorem State.setEnables_p0LockLimit (v : Enables) : (s.setEnables v).p0LockLimit = s.p0LockLimit := rfl
@[simp] theorem State.setEnables_fetches (v : Enables) : (s.setEnables v).fetches = s.fetches := rfl
@[simp] theorem State.setEnables_table (v : Enables) : (s.setEnables v).table = s.table := rfl
@[simp] theorem State.setEnables_map (v : Enables) : (s.setEnables v).map = s.map := rfl
@[simp] theorem State.setEnables_buffer (v : Enables) : (s.setEnables v).buffer = s.buffer := rfl
@[simp] theorem State.setEnables_issued (v : Enables) : (s.setEnables v).issued = s.issued := rfl
@[simp] theorem State.setEnables_roundRobin (v : Enables) : (s.setEnables v).roundRobin = s.roundRobin := rfl
@[simp] theorem State.setEnables_ctl (v : Enables) : (s.setEnables v).ctl = s.ctl := rfl
@[simp] theorem State.setEnables_lock (v : Enables) : (s.setEnables v).lock = s.lock := rfl
@[simp] theorem State.setEnables_seqs (v : Enables) : (s.setEnables v).seqs = s.seqs := rfl
@[simp] theorem State.setEnables_ring (v : Enables) : (s.setEnables v).ring = s.ring := rfl
@[simp] theorem State.setEnables_staged (v : Enables) : (s.setEnables v).staged = s.staged := rfl
@[simp] theorem State.setEnables_producer (v : Enables) : (s.setEnables v).producer = s.producer := rfl
@[simp] theorem State.setEnables_consumer (v : Enables) : (s.setEnables v).consumer = s.consumer := rfl
@[simp] theorem State.setEnables_interval (v : Enables) : (s.setEnables v).interval = s.interval := rfl
@[simp] theorem State.setEnables_nextExpiry (v : Enables) : (s.setEnables v).nextExpiry = s.nextExpiry := rfl
@[simp] theorem State.setEnables_opState (v : Enables) : (s.setEnables v).opState = s.opState := rfl
@[simp] theorem State.setEnables_command (v : Enables) : (s.setEnables v).command = s.command := rfl
@[simp] theorem State.setEnables_reporting (v : Enables) : (s.setEnables v).reporting = s.reporting := rfl
@[simp] theorem State.setEnables_statusChanged (v : Enables) : (s.setEnables v).statusChanged = s.statusChanged := rfl
@[simp] theorem State.setEnables_causes (v : Enables) : (s.setEnables v).causes = s.causes := rfl
@[simp] theorem State.setEnables_enables (v : Enables) : (s.setEnables v).enables = v := rfl
@[simp] theorem State.setEnables_irqAsserted (v : Enables) : (s.setEnables v).irqAsserted = s.irqAsserted := rfl
@[simp] theorem State.setEnables_now (v : Enables) : (s.setEnables v).now = s.now := rfl
@[simp] theorem State.setEnables_anc (v : Enables) : (s.setEnables v).anc = s.anc := rfl
@[simp] theorem State.setEnables_div (v : Enables) : (s.setEnables v).div = s.div := rfl
@[simp] theorem State.setEnables_inReset (v : Enables) : (s.setEnables v).inReset = s.inReset := rfl
@[simp] theorem State.setEnables_freeCounter (v : Enables) : (s.setEnables v).freeCounter = s.freeCounter := rfl
@[simp] theorem State.setEnables_pending (v : Enables) : (s.setEnables v).pending = s.pending := rfl
@[simp] theorem State.setIrqAsserted_ports (v : Bool) : (s.setIrqAsserted v).ports = s.ports := rfl
@[simp] theorem State.setIrqAsserted_engines (v : Bool) : (s.setIrqAsserted v).engines = s.engines := rfl
@[simp] theorem State.setIrqAsserted_p0LockLimit (v : Bool) : (s.setIrqAsserted v).p0LockLimit = s.p0LockLimit := rfl
@[simp] theorem State.setIrqAsserted_fetches (v : Bool) : (s.setIrqAsserted v).fetches = s.fetches := rfl
@[simp] theorem State.setIrqAsserted_table (v : Bool) : (s.setIrqAsserted v).table = s.table := rfl
@[simp] theorem State.setIrqAsserted_map (v : Bool) : (s.setIrqAsserted v).map = s.map := rfl
@[simp] theorem State.setIrqAsserted_buffer (v : Bool) : (s.setIrqAsserted v).buffer = s.buffer := rfl
@[simp] theorem State.setIrqAsserted_issued (v : Bool) : (s.setIrqAsserted v).issued = s.issued := rfl
@[simp] theorem State.setIrqAsserted_roundRobin (v : Bool) : (s.setIrqAsserted v).roundRobin = s.roundRobin := rfl
@[simp] theorem State.setIrqAsserted_ctl (v : Bool) : (s.setIrqAsserted v).ctl = s.ctl := rfl
@[simp] theorem State.setIrqAsserted_lock (v : Bool) : (s.setIrqAsserted v).lock = s.lock := rfl
@[simp] theorem State.setIrqAsserted_seqs (v : Bool) : (s.setIrqAsserted v).seqs = s.seqs := rfl
@[simp] theorem State.setIrqAsserted_ring (v : Bool) : (s.setIrqAsserted v).ring = s.ring := rfl
@[simp] theorem State.setIrqAsserted_staged (v : Bool) : (s.setIrqAsserted v).staged = s.staged := rfl
@[simp] theorem State.setIrqAsserted_producer (v : Bool) : (s.setIrqAsserted v).producer = s.producer := rfl
@[simp] theorem State.setIrqAsserted_consumer (v : Bool) : (s.setIrqAsserted v).consumer = s.consumer := rfl
@[simp] theorem State.setIrqAsserted_interval (v : Bool) : (s.setIrqAsserted v).interval = s.interval := rfl
@[simp] theorem State.setIrqAsserted_nextExpiry (v : Bool) : (s.setIrqAsserted v).nextExpiry = s.nextExpiry := rfl
@[simp] theorem State.setIrqAsserted_opState (v : Bool) : (s.setIrqAsserted v).opState = s.opState := rfl
@[simp] theorem State.setIrqAsserted_command (v : Bool) : (s.setIrqAsserted v).command = s.command := rfl
@[simp] theorem State.setIrqAsserted_reporting (v : Bool) : (s.setIrqAsserted v).reporting = s.reporting := rfl
@[simp] theorem State.setIrqAsserted_statusChanged (v : Bool) : (s.setIrqAsserted v).statusChanged = s.statusChanged := rfl
@[simp] theorem State.setIrqAsserted_causes (v : Bool) : (s.setIrqAsserted v).causes = s.causes := rfl
@[simp] theorem State.setIrqAsserted_enables (v : Bool) : (s.setIrqAsserted v).enables = s.enables := rfl
@[simp] theorem State.setIrqAsserted_irqAsserted (v : Bool) : (s.setIrqAsserted v).irqAsserted = v := rfl
@[simp] theorem State.setIrqAsserted_now (v : Bool) : (s.setIrqAsserted v).now = s.now := rfl
@[simp] theorem State.setIrqAsserted_anc (v : Bool) : (s.setIrqAsserted v).anc = s.anc := rfl
@[simp] theorem State.setIrqAsserted_div (v : Bool) : (s.setIrqAsserted v).div = s.div := rfl
@[simp] theorem State.setIrqAsserted_inReset (v : Bool) : (s.setIrqAsserted v).inReset = s.inReset := rfl
@[simp] theorem State.setIrqAsserted_freeCounter (v : Bool) : (s.setIrqAsserted v).freeCounter = s.freeCounter := rfl
@[simp] theorem State.setIrqAsserted_pending (v : Bool) : (s.setIrqAsserted v).pending = s.pending := rfl
@[simp] theorem State.setNow_ports (v : Micros) : (s.setNow v).ports = s.ports := rfl
@[simp] theorem State.setNow_engines (v : Micros) : (s.setNow v).engines = s.engines := rfl
@[simp] theorem State.setNow_p0LockLimit (v : Micros) : (s.setNow v).p0LockLimit = s.p0LockLimit := rfl
@[simp] theorem State.setNow_fetches (v : Micros) : (s.setNow v).fetches = s.fetches := rfl
@[simp] theorem State.setNow_table (v : Micros) : (s.setNow v).table = s.table := rfl
@[simp] theorem State.setNow_map (v : Micros) : (s.setNow v).map = s.map := rfl
@[simp] theorem State.setNow_buffer (v : Micros) : (s.setNow v).buffer = s.buffer := rfl
@[simp] theorem State.setNow_issued (v : Micros) : (s.setNow v).issued = s.issued := rfl
@[simp] theorem State.setNow_roundRobin (v : Micros) : (s.setNow v).roundRobin = s.roundRobin := rfl
@[simp] theorem State.setNow_ctl (v : Micros) : (s.setNow v).ctl = s.ctl := rfl
@[simp] theorem State.setNow_lock (v : Micros) : (s.setNow v).lock = s.lock := rfl
@[simp] theorem State.setNow_seqs (v : Micros) : (s.setNow v).seqs = s.seqs := rfl
@[simp] theorem State.setNow_ring (v : Micros) : (s.setNow v).ring = s.ring := rfl
@[simp] theorem State.setNow_staged (v : Micros) : (s.setNow v).staged = s.staged := rfl
@[simp] theorem State.setNow_producer (v : Micros) : (s.setNow v).producer = s.producer := rfl
@[simp] theorem State.setNow_consumer (v : Micros) : (s.setNow v).consumer = s.consumer := rfl
@[simp] theorem State.setNow_interval (v : Micros) : (s.setNow v).interval = s.interval := rfl
@[simp] theorem State.setNow_nextExpiry (v : Micros) : (s.setNow v).nextExpiry = s.nextExpiry := rfl
@[simp] theorem State.setNow_opState (v : Micros) : (s.setNow v).opState = s.opState := rfl
@[simp] theorem State.setNow_command (v : Micros) : (s.setNow v).command = s.command := rfl
@[simp] theorem State.setNow_reporting (v : Micros) : (s.setNow v).reporting = s.reporting := rfl
@[simp] theorem State.setNow_statusChanged (v : Micros) : (s.setNow v).statusChanged = s.statusChanged := rfl
@[simp] theorem State.setNow_causes (v : Micros) : (s.setNow v).causes = s.causes := rfl
@[simp] theorem State.setNow_enables (v : Micros) : (s.setNow v).enables = s.enables := rfl
@[simp] theorem State.setNow_irqAsserted (v : Micros) : (s.setNow v).irqAsserted = s.irqAsserted := rfl
@[simp] theorem State.setNow_now (v : Micros) : (s.setNow v).now = v := rfl
@[simp] theorem State.setNow_anc (v : Micros) : (s.setNow v).anc = s.anc := rfl
@[simp] theorem State.setNow_div (v : Micros) : (s.setNow v).div = s.div := rfl
@[simp] theorem State.setNow_inReset (v : Micros) : (s.setNow v).inReset = s.inReset := rfl
@[simp] theorem State.setNow_freeCounter (v : Micros) : (s.setNow v).freeCounter = s.freeCounter := rfl
@[simp] theorem State.setNow_pending (v : Micros) : (s.setNow v).pending = s.pending := rfl
@[simp] theorem State.setAnc_ports (v : BitVec 12) : (s.setAnc v).ports = s.ports := rfl
@[simp] theorem State.setAnc_engines (v : BitVec 12) : (s.setAnc v).engines = s.engines := rfl
@[simp] theorem State.setAnc_p0LockLimit (v : BitVec 12) : (s.setAnc v).p0LockLimit = s.p0LockLimit := rfl
@[simp] theorem State.setAnc_fetches (v : BitVec 12) : (s.setAnc v).fetches = s.fetches := rfl
@[simp] theorem State.setAnc_table (v : BitVec 12) : (s.setAnc v).table = s.table := rfl
@[simp] theorem State.setAnc_map (v : BitVec 12) : (s.setAnc v).map = s.map := rfl
@[simp] theorem State.setAnc_buffer (v : BitVec 12) : (s.setAnc v).buffer = s.buffer := rfl
@[simp] theorem State.setAnc_issued (v : BitVec 12) : (s.setAnc v).issued = s.issued := rfl
@[simp] theorem State.setAnc_roundRobin (v : BitVec 12) : (s.setAnc v).roundRobin = s.roundRobin := rfl
@[simp] theorem State.setAnc_ctl (v : BitVec 12) : (s.setAnc v).ctl = s.ctl := rfl
@[simp] theorem State.setAnc_lock (v : BitVec 12) : (s.setAnc v).lock = s.lock := rfl
@[simp] theorem State.setAnc_seqs (v : BitVec 12) : (s.setAnc v).seqs = s.seqs := rfl
@[simp] theorem State.setAnc_ring (v : BitVec 12) : (s.setAnc v).ring = s.ring := rfl
@[simp] theorem State.setAnc_staged (v : BitVec 12) : (s.setAnc v).staged = s.staged := rfl
@[simp] theorem State.setAnc_producer (v : BitVec 12) : (s.setAnc v).producer = s.producer := rfl
@[simp] theorem State.setAnc_consumer (v : BitVec 12) : (s.setAnc v).consumer = s.consumer := rfl
@[simp] theorem State.setAnc_interval (v : BitVec 12) : (s.setAnc v).interval = s.interval := rfl
@[simp] theorem State.setAnc_nextExpiry (v : BitVec 12) : (s.setAnc v).nextExpiry = s.nextExpiry := rfl
@[simp] theorem State.setAnc_opState (v : BitVec 12) : (s.setAnc v).opState = s.opState := rfl
@[simp] theorem State.setAnc_command (v : BitVec 12) : (s.setAnc v).command = s.command := rfl
@[simp] theorem State.setAnc_reporting (v : BitVec 12) : (s.setAnc v).reporting = s.reporting := rfl
@[simp] theorem State.setAnc_statusChanged (v : BitVec 12) : (s.setAnc v).statusChanged = s.statusChanged := rfl
@[simp] theorem State.setAnc_causes (v : BitVec 12) : (s.setAnc v).causes = s.causes := rfl
@[simp] theorem State.setAnc_enables (v : BitVec 12) : (s.setAnc v).enables = s.enables := rfl
@[simp] theorem State.setAnc_irqAsserted (v : BitVec 12) : (s.setAnc v).irqAsserted = s.irqAsserted := rfl
@[simp] theorem State.setAnc_now (v : BitVec 12) : (s.setAnc v).now = s.now := rfl
@[simp] theorem State.setAnc_anc (v : BitVec 12) : (s.setAnc v).anc = v := rfl
@[simp] theorem State.setAnc_div (v : BitVec 12) : (s.setAnc v).div = s.div := rfl
@[simp] theorem State.setAnc_inReset (v : BitVec 12) : (s.setAnc v).inReset = s.inReset := rfl
@[simp] theorem State.setAnc_freeCounter (v : BitVec 12) : (s.setAnc v).freeCounter = s.freeCounter := rfl
@[simp] theorem State.setAnc_pending (v : BitVec 12) : (s.setAnc v).pending = s.pending := rfl
@[simp] theorem State.setDiv_ports (v : BitVec 3) : (s.setDiv v).ports = s.ports := rfl
@[simp] theorem State.setDiv_engines (v : BitVec 3) : (s.setDiv v).engines = s.engines := rfl
@[simp] theorem State.setDiv_p0LockLimit (v : BitVec 3) : (s.setDiv v).p0LockLimit = s.p0LockLimit := rfl
@[simp] theorem State.setDiv_fetches (v : BitVec 3) : (s.setDiv v).fetches = s.fetches := rfl
@[simp] theorem State.setDiv_table (v : BitVec 3) : (s.setDiv v).table = s.table := rfl
@[simp] theorem State.setDiv_map (v : BitVec 3) : (s.setDiv v).map = s.map := rfl
@[simp] theorem State.setDiv_buffer (v : BitVec 3) : (s.setDiv v).buffer = s.buffer := rfl
@[simp] theorem State.setDiv_issued (v : BitVec 3) : (s.setDiv v).issued = s.issued := rfl
@[simp] theorem State.setDiv_roundRobin (v : BitVec 3) : (s.setDiv v).roundRobin = s.roundRobin := rfl
@[simp] theorem State.setDiv_ctl (v : BitVec 3) : (s.setDiv v).ctl = s.ctl := rfl
@[simp] theorem State.setDiv_lock (v : BitVec 3) : (s.setDiv v).lock = s.lock := rfl
@[simp] theorem State.setDiv_seqs (v : BitVec 3) : (s.setDiv v).seqs = s.seqs := rfl
@[simp] theorem State.setDiv_ring (v : BitVec 3) : (s.setDiv v).ring = s.ring := rfl
@[simp] theorem State.setDiv_staged (v : BitVec 3) : (s.setDiv v).staged = s.staged := rfl
@[simp] theorem State.setDiv_producer (v : BitVec 3) : (s.setDiv v).producer = s.producer := rfl
@[simp] theorem State.setDiv_consumer (v : BitVec 3) : (s.setDiv v).consumer = s.consumer := rfl
@[simp] theorem State.setDiv_interval (v : BitVec 3) : (s.setDiv v).interval = s.interval := rfl
@[simp] theorem State.setDiv_nextExpiry (v : BitVec 3) : (s.setDiv v).nextExpiry = s.nextExpiry := rfl
@[simp] theorem State.setDiv_opState (v : BitVec 3) : (s.setDiv v).opState = s.opState := rfl
@[simp] theorem State.setDiv_command (v : BitVec 3) : (s.setDiv v).command = s.command := rfl
@[simp] theorem State.setDiv_reporting (v : BitVec 3) : (s.setDiv v).reporting = s.reporting := rfl
@[simp] theorem State.setDiv_statusChanged (v : BitVec 3) : (s.setDiv v).statusChanged = s.statusChanged := rfl
@[simp] theorem State.setDiv_causes (v : BitVec 3) : (s.setDiv v).causes = s.causes := rfl
@[simp] theorem State.setDiv_enables (v : BitVec 3) : (s.setDiv v).enables = s.enables := rfl
@[simp] theorem State.setDiv_irqAsserted (v : BitVec 3) : (s.setDiv v).irqAsserted = s.irqAsserted := rfl
@[simp] theorem State.setDiv_now (v : BitVec 3) : (s.setDiv v).now = s.now := rfl
@[simp] theorem State.setDiv_anc (v : BitVec 3) : (s.setDiv v).anc = s.anc := rfl
@[simp] theorem State.setDiv_div (v : BitVec 3) : (s.setDiv v).div = v := rfl
@[simp] theorem State.setDiv_inReset (v : BitVec 3) : (s.setDiv v).inReset = s.inReset := rfl
@[simp] theorem State.setDiv_freeCounter (v : BitVec 3) : (s.setDiv v).freeCounter = s.freeCounter := rfl
@[simp] theorem State.setDiv_pending (v : BitVec 3) : (s.setDiv v).pending = s.pending := rfl
@[simp] theorem State.setInReset_ports (v : Bool) : (s.setInReset v).ports = s.ports := rfl
@[simp] theorem State.setInReset_engines (v : Bool) : (s.setInReset v).engines = s.engines := rfl
@[simp] theorem State.setInReset_p0LockLimit (v : Bool) : (s.setInReset v).p0LockLimit = s.p0LockLimit := rfl
@[simp] theorem State.setInReset_fetches (v : Bool) : (s.setInReset v).fetches = s.fetches := rfl
@[simp] theorem State.setInReset_table (v : Bool) : (s.setInReset v).table = s.table := rfl
@[simp] theorem State.setInReset_map (v : Bool) : (s.setInReset v).map = s.map := rfl
@[simp] theorem State.setInReset_buffer (v : Bool) : (s.setInReset v).buffer = s.buffer := rfl
@[simp] theorem State.setInReset_issued (v : Bool) : (s.setInReset v).issued = s.issued := rfl
@[simp] theorem State.setInReset_roundRobin (v : Bool) : (s.setInReset v).roundRobin = s.roundRobin := rfl
@[simp] theorem State.setInReset_ctl (v : Bool) : (s.setInReset v).ctl = s.ctl := rfl
@[simp] theorem State.setInReset_lock (v : Bool) : (s.setInReset v).lock = s.lock := rfl
@[simp] theorem State.setInReset_seqs (v : Bool) : (s.setInReset v).seqs = s.seqs := rfl
@[simp] theorem State.setInReset_ring (v : Bool) : (s.setInReset v).ring = s.ring := rfl
@[simp] theorem State.setInReset_staged (v : Bool) : (s.setInReset v).staged = s.staged := rfl
@[simp] theorem State.setInReset_producer (v : Bool) : (s.setInReset v).producer = s.producer := rfl
@[simp] theorem State.setInReset_consumer (v : Bool) : (s.setInReset v).consumer = s.consumer := rfl
@[simp] theorem State.setInReset_interval (v : Bool) : (s.setInReset v).interval = s.interval := rfl
@[simp] theorem State.setInReset_nextExpiry (v : Bool) : (s.setInReset v).nextExpiry = s.nextExpiry := rfl
@[simp] theorem State.setInReset_opState (v : Bool) : (s.setInReset v).opState = s.opState := rfl
@[simp] theorem State.setInReset_command (v : Bool) : (s.setInReset v).command = s.command := rfl
@[simp] theorem State.setInReset_reporting (v : Bool) : (s.setInReset v).reporting = s.reporting := rfl
@[simp] theorem State.setInReset_statusChanged (v : Bool) : (s.setInReset v).statusChanged = s.statusChanged := rfl
@[simp] theorem State.setInReset_causes (v : Bool) : (s.setInReset v).causes = s.causes := rfl
@[simp] theorem State.setInReset_enables (v : Bool) : (s.setInReset v).enables = s.enables := rfl
@[simp] theorem State.setInReset_irqAsserted (v : Bool) : (s.setInReset v).irqAsserted = s.irqAsserted := rfl
@[simp] theorem State.setInReset_now (v : Bool) : (s.setInReset v).now = s.now := rfl
@[simp] theorem State.setInReset_anc (v : Bool) : (s.setInReset v).anc = s.anc := rfl
@[simp] theorem State.setInReset_div (v : Bool) : (s.setInReset v).div = s.div := rfl
@[simp] theorem State.setInReset_inReset (v : Bool) : (s.setInReset v).inReset = v := rfl
@[simp] theorem State.setInReset_freeCounter (v : Bool) : (s.setInReset v).freeCounter = s.freeCounter := rfl
@[simp] theorem State.setInReset_pending (v : Bool) : (s.setInReset v).pending = s.pending := rfl
@[simp] theorem State.setFreeCounter_ports (v : Nat) : (s.setFreeCounter v).ports = s.ports := rfl
@[simp] theorem State.setFreeCounter_engines (v : Nat) : (s.setFreeCounter v).engines = s.engines := rfl
@[simp] theorem State.setFreeCounter_p0LockLimit (v : Nat) : (s.setFreeCounter v).p0LockLimit = s.p0LockLimit := rfl
@[simp] theorem State.setFreeCounter_fetches (v : Nat) : (s.setFreeCounter v).fetches = s.fetches := rfl
@[simp] theorem State.setFreeCounter_table (v : Nat) : (s.setFreeCounter v).table = s.table := rfl
@[simp] theorem State.setFreeCounter_map (v : Nat) : (s.setFreeCounter v).map = s.map := rfl
@[simp] theorem State.setFreeCounter_buffer (v : Nat) : (s.setFreeCounter v).buffer = s.buffer := rfl
@[simp] theorem State.setFreeCounter_issued (v : Nat) : (s.setFreeCounter v).issued = s.issued := rfl
@[simp] theorem State.setFreeCounter_roundRobin (v : Nat) : (s.setFreeCounter v).roundRobin = s.roundRobin := rfl
@[simp] theorem State.setFreeCounter_ctl (v : Nat) : (s.setFreeCounter v).ctl = s.ctl := rfl
@[simp] theorem State.setFreeCounter_lock (v : Nat) : (s.setFreeCounter v).lock = s.lock := rfl
@[simp] theorem State.setFreeCounter_seqs (v : Nat) : (s.setFreeCounter v).seqs = s.seqs := rfl
@[simp] theorem State.setFreeCounter_ring (v : Nat) : (s.setFreeCounter v).ring = s.ring := rfl
@[simp] theorem State.setFreeCounter_staged (v : Nat) : (s.setFreeCounter v).staged = s.staged := rfl
@[simp] theorem State.setFreeCounter_producer (v : Nat) : (s.setFreeCounter v).producer = s.producer := rfl
@[simp] theorem State.setFreeCounter_consumer (v : Nat) : (s.setFreeCounter v).consumer = s.consumer := rfl
@[simp] theorem State.setFreeCounter_interval (v : Nat) : (s.setFreeCounter v).interval = s.interval := rfl
@[simp] theorem State.setFreeCounter_nextExpiry (v : Nat) : (s.setFreeCounter v).nextExpiry = s.nextExpiry := rfl
@[simp] theorem State.setFreeCounter_opState (v : Nat) : (s.setFreeCounter v).opState = s.opState := rfl
@[simp] theorem State.setFreeCounter_command (v : Nat) : (s.setFreeCounter v).command = s.command := rfl
@[simp] theorem State.setFreeCounter_reporting (v : Nat) : (s.setFreeCounter v).reporting = s.reporting := rfl
@[simp] theorem State.setFreeCounter_statusChanged (v : Nat) : (s.setFreeCounter v).statusChanged = s.statusChanged := rfl
@[simp] theorem State.setFreeCounter_causes (v : Nat) : (s.setFreeCounter v).causes = s.causes := rfl
@[simp] theorem State.setFreeCounter_enables (v : Nat) : (s.setFreeCounter v).enables = s.enables := rfl
@[simp] theorem State.setFreeCounter_irqAsserted (v : Nat) : (s.setFreeCounter v).irqAsserted = s.irqAsserted := rfl
@[simp] theorem State.setFreeCounter_now (v : Nat) : (s.setFreeCounter v).now = s.now := rfl
@[simp] theorem State.setFreeCounter_anc (v : Nat) : (s.setFreeCounter v).anc = s.anc := rfl
@[simp] theorem State.setFreeCounter_div (v : Nat) : (s.setFreeCounter v).div = s.div := rfl
@[simp] theorem State.setFreeCounter_inReset (v : Nat) : (s.setFreeCounter v).inReset = s.inReset := rfl
@[simp] theorem State.setFreeCounter_freeCounter (v : Nat) : (s.setFreeCounter v).freeCounter = v := rfl
@[simp] theorem State.setFreeCounter_pending (v : Nat) : (s.setFreeCounter v).pending = s.pending := rfl
@[simp] theorem State.setPending_ports (v : List Instr) : (s.setPending v).ports = s.ports := rfl
@[simp] theorem State.setPending_engines (v : List Instr) : (s.setPending v).engines = s.engines := rfl
@[simp] theorem State.setPending_p0LockLimit (v : List Instr) : (s.setPending v).p0LockLimit = s.p0LockLimit := rfl
@[simp] theorem State.setPending_fetches (v : List Instr) : (s.setPending v).fetches = s.fetches := rfl
@[simp] theorem State.setPending_table (v : List Instr) : (s.setPending v).table = s.table := rfl
@[simp] theorem State.setPending_map (v : List Instr) : (s.setPending v).map = s.map := rfl
@[simp] theorem State.setPending_buffer (v : List Instr) : (s.setPending v).buffer = s.buffer := rfl
@[simp] theorem State.setPending_issued (v : List Instr) : (s.setPending v).issued = s.issued := rfl
@[simp] theorem State.setPending_roundRobin (v : List Instr) : (s.setPending v).roundRobin = s.roundRobin := rfl
@[simp] theorem State.setPending_ctl (v : List Instr) : (s.setPending v).ctl = s.ctl := rfl
@[simp] theorem State.setPending_lock (v : List Instr) : (s.setPending v).lock = s.lock := rfl
@[simp] theorem State.setPending_seqs (v : List Instr) : (s.setPending v).seqs = s.seqs := rfl
@[simp] theorem State.setPending_ring (v : List Instr) : (s.setPending v).ring = s.ring := rfl
@[simp] theorem State.setPending_staged (v : List Instr) : (s.setPending v).staged = s.staged := rfl
@[simp] theorem State.setPending_producer (v : List Instr) : (s.setPending v).producer = s.producer := rfl
@[simp] theorem State.setPending_consumer (v : List Instr) : (s.setPending v).consumer = s.consumer := rfl
@[simp] theorem State.setPending_interval (v : List Instr) : (s.setPending v).interval = s.interval := rfl
@[simp] theorem State.setPending_nextExpiry (v : List Instr) : (s.setPending v).nextExpiry = s.nextExpiry := rfl
@[simp] theorem State.setPending_opState (v : List Instr) : (s.setPending v).opState = s.opState := rfl
@[simp] theorem State.setPending_command (v : List Instr) : (s.setPending v).command = s.command := rfl
@[simp] theorem State.setPending_reporting (v : List Instr) : (s.setPending v).reporting = s.reporting := rfl
@[simp] theorem State.setPending_statusChanged (v : List Instr) : (s.setPending v).statusChanged = s.statusChanged := rfl
@[simp] theorem State.setPending_causes (v : List Instr) : (s.setPending v).causes = s.causes := rfl
@[simp] theorem State.setPending_enables (v : List Instr) : (s.setPending v).enables = s.enables := rfl
@[simp] theorem State.setPending_irqAsserted (v : List Instr) : (s.setPending v).irqAsserted = s.irqAsserted := rfl
@[simp] theorem State.setPending_now (v : List Instr) : (s.setPending v).now = s.now := rfl
@[simp] theorem State.setPending_anc (v : List Instr) : (s.setPending v).anc = s.anc := rfl
@[simp] theorem State.setPending_div (v : List Instr) : (s.setPending v).div = s.div := rfl
@[simp] theorem State.setPending_inReset (v : List Instr) : (s.setPending v).inReset = s.inReset := rfl
@[simp] theorem State.setPending_freeCounter (v : List Instr) : (s.setPending v).freeCounter = s.freeCounter := rfl
@[simp] theorem State.setPending_pending (v : List Instr) : (s.setPending v).pending = v := rfl

end

/-! ### Updates inside a Port Unit, an engine port and a window -/

section
variable (s : State)

@[simp] theorem State.unit_setPorts (v : PerPort PortUnit) (p : Port) : (s.setPorts v).unit p = v.get p := rfl
@[simp] theorem State.eng_setEngines (v : PerEngine EngineUnit) (e : Engine) : (s.setEngines v).eng e = v.get e := rfl
@[simp] theorem State.seqOf_setSeqs (v : PerPort Sequence) (p : Port) : (s.setSeqs v).seqOf p = v.get p := rfl

theorem State.setUnit_eq (p : Port) (u : PortUnit) : s.setUnit p u = { s with ports := s.ports.set p u } := rfl
theorem State.setEng_eq (e : Engine) (u : EngineUnit) : s.setEng e u = { s with engines := s.engines.set e u } := rfl
theorem State.setSeq_eq (p : Port) (q : Sequence) : s.setSeq p q = { s with seqs := s.seqs.set p q } := rfl
theorem State.setWindow_eq (e : Engine) (w : Index8) (v : Window) : s.setWindow e w v = { s with
    engines := s.engines.set e { s.eng e with windows := (s.eng e).windows.set w v } } := rfl
theorem State.setQueue_eq (p : Port) (q : List QEntry) :
    s.setQueue p q = { s with ports := s.ports.set p { s.unit p with queue := q } } := rfl
theorem State.setHold_eq (p : Port) (h : Option Hold) :
    s.setHold p h = { s with ports := s.ports.set p { s.unit p with hold := h } } := rfl

end

end Sys2Proof.Machine
end

