-- ==== Sys2Proof/Laws/Ops.lean ====
section
/-! SUPPORT. What each shared operation can do: a lemma `_eq` says the state it gives field by field, and a lemma
`_frame` names the only fields it can change. -/

namespace Sys2Proof.Machine

section
variable (s : State)

/-! ### Notes of changes -/

theorem State.noteFrom_eq (t : State) :
    s.noteFrom t = { t with
      statusChanged := t.statusChanged || !decide (t.statusWord = s.statusWord ∧ t.producer = s.producer) } := by
  unfold State.noteFrom
  by_cases h : t.statusWord = s.statusWord ∧ t.producer = s.producer
  · rw [if_pos h, decide_eq_true h]
    simp only [Bool.not_true, Bool.or_false]
  · rw [if_neg h, decide_eq_false h]
    simp only [Bool.not_false, Bool.or_true]
    rfl

theorem State.changeCauses_frame (c : Causes) :
    s.changeCauses c = { s with causes := c, statusChanged := (s.changeCauses c).statusChanged } := by
  simp only [State.changeCauses, State.noteFrom_eq]; rfl

theorem State.changeCommand_frame (c : Option Command) :
    s.changeCommand c = { s with command := c, statusChanged := (s.changeCommand c).statusChanged } := by
  simp only [State.changeCommand, State.noteFrom_eq]; rfl

theorem State.changeIndices_frame (p c : Nat) :
    s.changeIndices p c =
      { s with producer := p, consumer := c, statusChanged := (s.changeIndices p c).statusChanged } := by
  simp only [State.changeIndices, State.noteFrom_eq]; rfl

/-! ### Queues and holds -/

theorem length_updateFirst {α : Type} (p : α → Bool) (f : α → α) (l : List α) :
    (updateFirst p f l).length = l.length := by
  induction l with
  | nil => rfl
  | cons a as ih => unfold updateFirst; split <;> simp [ih]

theorem updateFirst_of_none {α : Type} (p : α → Bool) (f : α → α) (l : List α) (h : l.find? p = none) :
    updateFirst p f l = l := by
  induction l with
  | nil => rfl
  | cons a as ih =>
    rw [List.find?_cons] at h
    unfold updateFirst
    split <;> rename_i ha <;> simp_all

theorem State.decideWaiting_eq (p : Port) (r : Response) :
    s.decideWaiting p r = { s with ports := s.ports.set p { s.unit p with
      queue := updateFirst QEntry.isWaiting (QEntry.decide r) (s.queueOf p), hold := none } } := rfl

theorem State.endHolds_eq (f : Hold → Bool) :
    s.endHolds f = { s with ports := s.ports.map fun u => if u.hold.any f then { u with hold := none } else u } := rfl

theorem State.refuseEngineEntries_eq (f : QEntry → Bool) (c : RefusalCode) :
    s.refuseEngineEntries f c = { s with ports := ⟨s.ports.p0, s.ports.engines.map fun u =>
      { u with queue := u.queue.map fun x => if f x then x.decide (.refused c) else x }⟩ } := rfl

theorem splitDecided_append (q : List QEntry) :
    ∃ ds : List QEntry, q = ds ++ (splitDecided q).2 ∧ ds.map QEntry.phase = (splitDecided q).1.map Phase.decided := by
  induction q with
  | nil => exact ⟨[], rfl, rfl⟩
  | cons e q ih =>
    obtain ⟨req, ph⟩ := e
    cases ph with
    | decided r =>
      obtain ⟨ds, hq, hp⟩ := ih
      refine ⟨⟨req, .decided r⟩ :: ds, ?_, ?_⟩
      · exact congrArg (⟨req, .decided r⟩ :: ·) hq
      · exact congrArg (Phase.decided r :: ·) hp
    | waiting | admitted _ | issued _ _ _ => exact ⟨[], rfl, rfl⟩

theorem State.answerLinks_eq : s.answerLinks = { s with ports := s.ports.map PortUnit.answer } := rfl

/-! ### The controller-originated queue and results -/

theorem State.raiseCtl_eq (k : CtlKind) (a : Word) (n : Nat) (d : List Beat) :
    s.raiseCtl k a n d = { s with ctl := s.ctl ++ [⟨k, a, n, d, false⟩] } := rfl

theorem State.withdrawStatus_eq :
    s.withdrawStatus = { s with
      ctl := s.ctl.filter fun r => !r.isStatus, statusChanged := s.statusChanged || s.statusWaiting } := by
  unfold State.withdrawStatus
  split <;> rename_i h
  · simp [h, State.setCtl, State.setStatusChanged]
  · have hn : s.ctl.filter (fun r => !r.isStatus) = s.ctl := by
      rw [List.filter_eq_self]
      intro r hr
      simp only [State.statusWaiting, List.any_eq_true, not_exists, not_and] at h
      simpa using h r hr
    have hw : s.statusWaiting = false := by simpa using h
    simp [hn, hw]

theorem State.raiseResult_frame (c : BitVec 8) (o : CommandOutcome) (n : Nat) :
    s.raiseResult c o n = { s with
      ctl := (s.ctl.filter fun r => !r.isStatus) ++
        [⟨.resultWrite, s.blockAddr 0x04, 1, fullBeats [resultWord c o n], false⟩]
      statusChanged := s.statusChanged || s.statusWaiting } := by
  simp only [State.raiseResult, State.withdrawStatus_eq]; rfl

theorem State.finalResult_frame (c : BitVec 8) (o : CommandOutcome) (n : Nat) :
    s.finalResult c o n = { s with
      ctl := (s.ctl.filter fun r => !r.isStatus) ++
        [⟨.resultWrite, s.blockAddr 0x04, 1, fullBeats [resultWord c o n], false⟩]
      command := none
      causes := { s.causes with done := true }
      ports := s.ports.map fun u => if u.hold.any Hold.ofCommand then { u with hold := none } else u
      statusChanged := (s.finalResult c o n).statusChanged } := by
  simp only [State.finalResult, State.setDone, State.changeCauses, State.changeCommand, State.noteFrom_eq,
    State.raiseResult_frame]
  rfl

theorem State.raiseStatus_frame :
    s.raiseStatus = { s with ctl := s.raiseStatus.ctl, statusChanged := false } := by
  unfold State.raiseStatus
  split <;> rfl

/-! ### Port states and the operating state -/

theorem State.changePortState_frame (e : Engine) (st : PortState) :
    s.changePortState e st = { s with
      engines := (s.changePortState e st).engines
      ports := (s.changePortState e st).ports
      statusChanged := (s.changePortState e st).statusChanged } := by
  unfold State.changePortState
  split
  · rfl
  · simp only [State.noteFrom_eq]; rfl

/-- Every hold ended, and nothing else (R6). -/
theorem State.endHolds_all :
    s.endHolds (fun _ => true) = { s with ports := s.ports.map fun u => { u with hold := none } } := by
  have h : (fun u : PortUnit => if u.hold.any (fun _ => true) then { u with hold := none } else u) =
      fun u => { u with hold := none } := by
    funext u
    obtain ⟨q, l, g, ho, n⟩ := u
    cases ho <;> rfl
  rw [State.endHolds_eq, h]

/-- What a change of the port state leaves of a hold, in one condition (R144, R148). -/
theorem Hold.lapse_eq (h : Option Hold) : h.bind Hold.lapse =
    if h = some .configurePort ∨ h = some .configureLapsed then some .configureLapsed else none := by
  rcases h with _ | h
  · rfl
  · cases h <;> rfl

theorem State.changePortState_ports (e : Engine) (st : PortState) (hs : (s.eng e).state ≠ st) :
    (s.changePortState e st).ports =
      s.ports.set (.engine e) { s.unit (.engine e) with hold := (s.holdOf (.engine e)).bind Hold.lapse } := by
  unfold State.changePortState
  rw [if_neg hs]
  simp only [State.noteFrom]
  split <;> rfl

theorem State.changePortState_engines (e : Engine) (st : PortState) :
    (s.changePortState e st).engines = s.engines.set e { s.eng e with state := st } := by
  unfold State.changePortState
  split
  · rename_i h
    subst h
    exact (PerEngine.set_get_same s.engines e).symm
  · simp only [State.noteFrom_eq]; rfl

theorem State.changeOp_frame (st : OpState) :
    s.changeOp st = { s with
      opState := st
      ports := (s.changeOp st).ports
      statusChanged := (s.changeOp st).statusChanged } := by
  unfold State.changeOp
  split
  · rename_i h; subst h; rfl
  · simp only [State.noteFrom_eq]; rfl

theorem State.setStorm_eq (e : Engine) (c : BitVec 8) :
    s.setStorm e c = { s with engines := s.engines.set e { s.eng e with storm := c } } := rfl

/-! ### Fault reports -/

theorem State.raiseRingWrite_frame :
    s.raiseRingWrite = { s with staged := s.raiseRingWrite.staged, ctl := s.raiseRingWrite.ctl } := by
  unfold State.raiseRingWrite
  split
  · split <;> rfl
  · rfl

theorem State.stageRecord_frame (r : FaultRecord) :
    s.stageRecord r = { s with
      staged := (s.stageRecord r).staged
      causes := (s.stageRecord r).causes
      statusChanged := (s.stageRecord r).statusChanged } := by
  unfold State.stageRecord
  split
  · rfl
  · split
    · rfl
    · simp only [State.setOverflow, State.changeCauses, State.noteFrom_eq]; rfl

theorem State.takeRecord_frame (r : FaultRecord) :
    s.takeRecord r = { s with
      staged := (s.takeRecord r).staged
      ctl := (s.takeRecord r).ctl
      causes := (s.takeRecord r).causes
      statusChanged := (s.takeRecord r).statusChanged } := by
  unfold State.takeRecord
  split
  all_goals first
    | rfl
    | (rw [State.raiseRingWrite_frame, State.stageRecord_frame])
    | (simp only [State.setOverflow, State.changeCauses, State.noteFrom_eq]; rfl)

theorem State.applyErrorMode_frame (e : Engine) :
    s.applyErrorMode e = { s with
      engines := (s.applyErrorMode e).engines
      ports := (s.applyErrorMode e).ports
      statusChanged := (s.applyErrorMode e).statusChanged } := by
  unfold State.applyErrorMode
  split
  · split
    all_goals first
      | rfl
      | exact s.changePortState_frame e .blocked
  · rfl

theorem State.countFault_frame (e : Engine) (r : FaultRecord) :
    s.countFault e r = { s with
      engines := (s.countFault e r).engines
      ports := (s.countFault e r).ports
      staged := (s.countFault e r).staged
      ctl := (s.countFault e r).ctl
      causes := (s.countFault e r).causes
      statusChanged := (s.countFault e r).statusChanged } := by
  simp only [State.countFault]
  split
  · rw [State.takeRecord_frame, State.changePortState_frame]; rfl
  · rfl

/-- What a fault report can change: engine ports with their holds, the staging FIFO, the controller-originated queue,
OVERFLOW and the note of a change. -/
theorem State.report_frame (r : FaultRecord) :
    s.report r = { s with
      engines := (s.report r).engines
      ports := (s.report r).ports
      staged := (s.report r).staged
      ctl := (s.report r).ctl
      causes := (s.report r).causes
      statusChanged := (s.report r).statusChanged } := by
  unfold State.report
  split
  · rw [State.takeRecord_frame]
  · rw [State.countFault_frame, State.applyErrorMode_frame, State.takeRecord_frame]

/-! ### Windows, the buffer, locks -/

theorem State.markWindows_eq (f : Window → Bool) :
    s.markWindows f = { s with
      engines := s.engines.map fun u => { u with windows := u.windows.map fun v => if f v then v.mark else v } } := rfl

theorem State.raiseFetch_frame (e : Engine) (w : Index8) (k : Selector) (p : Purpose) :
    s.raiseFetch e w k p = { s with
      fetches := (s.raiseFetch e w k p).fetches, ctl := (s.raiseFetch e w k p).ctl } := by
  unfold State.raiseFetch
  split <;> rfl

theorem State.endWindowHold_frame (e : Engine) (w : Index8) :
    s.endWindowHold e w = { s with ports := (s.endWindowHold e w).ports } := by
  unfold State.endWindowHold
  split <;> rfl

theorem State.emptyWindow_frame (e : Engine) (w : Index8) :
    s.emptyWindow e w = { s with
      engines := s.engines.set e { s.eng e with windows := (s.eng e).windows.set w Window.reset }
      fetches := s.fetches.map fun f => if f.engine = e ∧ f.window = w then { f with current := false } else f
      ports := (s.emptyWindow e w).ports } := by
  unfold State.emptyWindow
  rw [State.endWindowHold_frame]
  rfl

theorem State.emptyAllWindows_eq :
    s.emptyAllWindows = { s with
      engines := s.engines.map fun u => { u with windows := eightOf Window.reset }
      fetches := s.fetches.map fun f => { f with current := false }
      ports := s.ports.map fun u => if u.hold.any Hold.onWindow then { u with hold := none } else u } := rfl

theorem State.fillEntry_frame (v : Posted) : s.fillEntry v = { s with buffer := (s.fillEntry v).buffer } := by
  unfold State.fillEntry
  split <;> rfl

theorem State.applyLockStep_frame (p : Port) (l : LockStep) :
    s.applyLockStep p l = { s with
      seqs := s.seqs.set p l.record
      lock := if l.endsLock then none else s.lock
      ports := (s.applyLockStep p l).ports } := by
  obtain ⟨v, q, a, b⟩ := l
  cases a <;> cases b <;> rfl

theorem State.beginLock_frame (p : Port) :
    s.beginLock p = { s with lock := (s.beginLock p).lock, seqs := (s.beginLock p).seqs } := by
  unfold State.beginLock
  split <;> rfl

theorem State.haltLocks_frame :
    s.haltLocks = { s with lock := none, seqs := s.haltLocks.seqs, ports := s.haltLocks.ports } := by
  simp only [State.haltLocks]
  split
  · rename_i h; simp [h, State.setSeqs]
  · split <;> rfl

/-! ### HALT entry, STOP and the end of an event -/

theorem State.discardStaged_frame :
    s.discardStaged = { s with
      staged := []
      causes := { s.causes with overflow := s.causes.overflow || !s.staged.isEmpty }
      statusChanged := s.discardStaged.statusChanged } := by
  unfold State.discardStaged
  split
  · rename_i h
    rw [h]
    have hn : ([] : List Staged) = s.staged := (by simpa using h : s.staged = []).symm
    rw [hn]
    simp only [Bool.not_true, Bool.or_false]
  · rename_i h
    simp only [State.setOverflow, State.changeCauses, State.noteFrom_eq]
    simp [State.setCauses, State.setStaged, h]

theorem State.haltEntry_opState : s.haltEntry.opState = .halted := by
  simp only [State.haltEntry, State.setHalt, State.changeCauses, State.changeCommand, State.noteFrom_eq,
    State.setStatusChanged, State.setCauses, State.setCommand, State.setNextExpiry, State.setMarks, State.setBuffer]
  rw [State.haltLocks_frame, State.refuseEngineEntries_eq, State.endHolds_eq, State.changeOp_frame]

theorem State.disableEngines_engines :
    s.disableEngines.engines = s.engines.map fun u => { u with state := .disabled } := by
  simp only [State.disableEngines, State.changePortState_engines, State.eng]
  rfl

theorem State.disableEngines_frame :
    s.disableEngines = { s with
      engines := s.disableEngines.engines
      ports := s.disableEngines.ports
      statusChanged := s.disableEngines.statusChanged } := by
  unfold State.disableEngines
  rw [State.changePortState_frame (e := .p3), State.changePortState_frame (e := .p2),
    State.changePortState_frame (e := .p1)]

/-- What the completion of STOP leaves: BOOT, no command in progress, the timer stopped, DONE set, the windows emptied and
the engine ports DISABLED (R165); the staging FIFO, the ring and the locks are not touched. -/
theorem State.completeStop_frame :
    s.completeStop = { s with
      ports := s.completeStop.ports
      engines := s.engines.map fun u => { u with state := .disabled, windows := eightOf Window.reset }
      fetches := s.fetches.map fun f => { f with current := false }
      ctl := s.completeStop.ctl
      nextExpiry := none
      opState := .boot
      command := none
      statusChanged := s.completeStop.statusChanged
      causes := { s.causes with done := true } } := by
  obtain ⟨d, hd⟩ : ∃ d, d = (s.refuseEngineEntries QEntry.isWaiting .notActive).emptyAllWindows.disableEngines := ⟨_, rfl⟩
  have hs : s.completeStop = (((d.setNextExpiry none).changeOp .boot).finalResult 2 .ok 0).answerLinks := by rw [hd]; rfl
  have hf : d = { s with
      engines := s.engines.map fun u => { u with state := .disabled, windows := eightOf Window.reset }
      fetches := s.fetches.map fun f => { f with current := false }
      ports := d.ports
      statusChanged := d.statusChanged } := by
    rw [hd, State.disableEngines_frame, State.disableEngines_engines]
    rfl
  rw [hs, State.answerLinks_eq, State.finalResult_frame, State.changeOp_frame]
  clear hd hs
  obtain ⟨⟩ := d
  simp only [State.mk.injEq] at hf
  obtain ⟨-, rfl, rfl, rfl, rfl, rfl, rfl, rfl, rfl, rfl, rfl, rfl, rfl, rfl, rfl, rfl, rfl, rfl, rfl, rfl, rfl, -, rfl, rfl,
    rfl, rfl, rfl, rfl, rfl, rfl, rfl⟩ := hf
  rfl

theorem State.tryStop_of_not_stopping (h : s.opState ≠ .stopping) : s.tryStop = s := by
  simp [State.tryStop, h]

theorem State.settle_of_not_stopping (h : s.opState ≠ .stopping) :
    s.settle = s.answerLinks.followIrq.raiseStatus := by
  have h' : s.answerLinks.opState ≠ .stopping := h
  simp [State.settle, State.tryStop_of_not_stopping _ h']

/-- Outside STOPPING the end of an event changes the ports by the responses it gives, the pin, and the
controller-originated queue by a status update. -/
theorem State.settle_frame (h : s.opState ≠ .stopping) :
    s.settle = { s with
      ports := s.ports.map PortUnit.answer
      irqAsserted := s.irqLevel
      ctl := s.settle.ctl
      statusChanged := false } := by
  rw [State.settle_of_not_stopping s h, State.raiseStatus_frame]
  rfl

theorem State.event_inReset (f : State → State) (h : s.inReset = true) : s.event f = .next s := by
  simp [State.event, h]

theorem State.event_running (f : State → State) (h : s.inReset = false) : s.event f = .next (f s).settle := by
  simp [State.event, h]

theorem State.event_next (f : State → State) (t : State) (h : s.event f = .next t) :
    t = s ∨ t = (f s).settle := by
  unfold State.event at h
  split at h <;> cases h
  · exact .inl rfl
  · exact .inr rfl

/-- All that a memory answer can do when it gives a next state. -/
theorem State.answerEvent_next (wanted : Owner → Bool) (a : Answer) (f : Issued → State → State) (t : State)
    (h : s.answerEvent wanted a f = .next t) :
    t = s ∨ ∃ i rest, s.issued = i :: rest ∧ wanted i.owner = true ∧ answerFits a i = true ∧
      t = (f i { s with issued := rest }).settle := by
  unfold State.answerEvent at h
  split at h
  · cases h; exact .inl rfl
  · split at h
    · cases h
    · rename_i i rest hi
      split at h
      · rename_i hw
        split at h
        · rename_i hf
          cases h
          exact .inr ⟨i, rest, hi, hw, hf, rfl⟩
        · cases h
      · cases h

/-- A memory answer taken from the oldest issued request, of the kind and length it needs. -/
theorem State.answerEvent_taken (wanted : Owner → Bool) (a : Answer) (f : Issued → State → State) (i : Issued)
    (rest : List Issued) (hr : s.inReset = false) (hi : s.issued = i :: rest) (hw : wanted i.owner = true)
    (hf : answerFits a i = true) : s.answerEvent wanted a f = .next (f i { s with issued := rest }).settle := by
  unfold State.answerEvent
  rw [if_neg (by simp [hr]), hi]
  simp only [hw, hf, if_true]
  rfl

end

end Sys2Proof.Machine
end

