-- ==== Sys2Proof/Laws/PerInstr.lean ====
section
/-! SUPPORT. A law of every command's operands: a well-formed command carries at most the 16 words of one burst (R1,
R15). -/

namespace Sys2Proof.Laws.BurstBound

/-- The words a command carries in from outside the part: the beats of a request or the words of an answer, and one
word for a write of a live word. -/
def carried : Instr → Nat
  | .requestAccept _ r => r.data.length
  | .pieceAnswer (.ok d) | .descriptorFetchAnswer (.ok d) | .startReadAnswer (.ok d) | .reloadMapReadAnswer (.ok d)
  | .configurePortReadAnswer (.ok d) => d.length
  | .unknownCommand _ | .malformed _ _ | .ignoredCommand _ | .commandOverrun _ _ | .consumer _ _ | .enable _ _
  | .acknowledge _ _ => 1
  | _ => 0

/-- A well-formed command carries at most one burst. -/
def Statement (i : Instr) : Prop := i.wf = true → carried i ≤ 16

/-- An answer that is well formed carries at most one burst. -/
theorem answer_carries {a : Answer} (h : a.wf = true) : ∀ d, a = .ok d → d.length ≤ 16 := by
  intro d hd
  subst hd
  simpa [Answer.wf] using h

theorem resetAssert : Statement .resetAssert := fun _ => Nat.zero_le _
theorem resetRelease (anc : BitVec 12) (div : BitVec 3) : Statement (.resetRelease anc div) := fun _ => Nat.zero_le _
theorem timebaseTick : Statement .timebaseTick := fun _ => Nat.zero_le _
theorem requestAccept (p : Port) (req : Request) : Statement (.requestAccept p req) := by
  intro h
  simp only [Instr.wf, Request.wf, Bool.and_eq_true, decide_eq_true_eq] at h
  obtain ⟨⟨⟨_, hb⟩, _⟩, hd⟩ := h
  show req.data.length ≤ 16
  rw [hd]
  split
  · exact hb
  · exact Nat.zero_le _
theorem admission (p : Port) : Statement (.admission p) := fun _ => Nat.zero_le _
theorem grant : Statement .grant := fun _ => Nat.zero_le _
theorem pieceAnswer (a : Answer) : Statement (.pieceAnswer a) := by
  intro h
  cases a with
  | ok d => exact answer_carries (a := .ok d) h d rfl
  | error => exact Nat.zero_le _
theorem postedEntryAnswer (a : Ack) : Statement (.postedEntryAnswer a) := fun _ => Nat.zero_le _
theorem descriptorFetchAnswer (a : Answer) : Statement (.descriptorFetchAnswer a) := by
  intro h
  cases a with
  | ok d => exact answer_carries (a := .ok d) h d rfl
  | error => exact Nat.zero_le _
theorem startReadAnswer (a : Answer) : Statement (.startReadAnswer a) := by
  intro h
  cases a with
  | ok d => exact answer_carries (a := .ok d) h d rfl
  | error => exact Nat.zero_le _
theorem reloadMapReadAnswer (a : Answer) : Statement (.reloadMapReadAnswer a) := by
  intro h
  cases a with
  | ok d => exact answer_carries (a := .ok d) h d rfl
  | error => exact Nat.zero_le _
theorem configurePortReadAnswer (a : Answer) : Statement (.configurePortReadAnswer a) := by
  intro h
  cases a with
  | ok d => exact answer_carries (a := .ok d) h d rfl
  | error => exact Nat.zero_le _
theorem ringWriteAnswer (a : Ack) : Statement (.ringWriteAnswer a) := fun _ => Nat.zero_le _
theorem statusUpdateAnswer (a : Ack) : Statement (.statusUpdateAnswer a) := fun _ => Nat.zero_le _
theorem resultWriteAnswer (a : Ack) : Statement (.resultWriteAnswer a) := fun _ => Nat.zero_le _
theorem lockTimerExpiry : Statement .lockTimerExpiry := fun _ => Nat.zero_le _
theorem intervalExpiry : Statement .intervalExpiry := fun _ => Nat.zero_le _
theorem start : Statement .start := fun _ => Nat.zero_le _
theorem stop : Statement .stop := fun _ => Nat.zero_le _
theorem loadWindow (p : Port) (w : Index8) (arg : Arg) : Statement (.loadWindow p w arg) := fun _ => Nat.zero_le _
theorem clearWindow (p : Port) (w : Index8) : Statement (.clearWindow p w) := fun _ => Nat.zero_le _
theorem rotate (p : Port) (w : Index8) (arg : Arg) : Statement (.rotate p w arg) := fun _ => Nat.zero_le _
theorem invalidate (arg : Arg) : Statement (.invalidate arg) := fun _ => Nat.zero_le _
theorem invalidateAll : Statement .invalidateAll := fun _ => Nat.zero_le _
theorem releasePort (p : Port) : Statement (.releasePort p) := fun _ => Nat.zero_le _
theorem configurePort (p : Port) : Statement (.configurePort p) := fun _ => Nat.zero_le _
theorem reloadMap : Statement .reloadMap := fun _ => Nat.zero_le _
theorem drain : Statement .drain := fun _ => Nat.zero_le _
theorem unknownCommand (word : Word) : Statement (.unknownCommand word) := fun _ => by
  show 1 ≤ 16
  decide
theorem malformed (lanes : Lanes) (word : Word) : Statement (.malformed lanes word) := fun _ => by
  show 1 ≤ 16
  decide
theorem ignoredCommand (word : Word) : Statement (.ignoredCommand word) := fun _ => by
  show 1 ≤ 16
  decide
theorem consumer (lanes : Lanes) (word : Word) : Statement (.consumer lanes word) := fun _ => by
  show 1 ≤ 16
  decide
theorem enable (lanes : Lanes) (word : Word) : Statement (.enable lanes word) := fun _ => by
  show 1 ≤ 16
  decide
theorem acknowledge (lanes : Lanes) (word : Word) : Statement (.acknowledge lanes word) := fun _ => by
  show 1 ≤ 16
  decide
theorem commandOverrun (lanes : Lanes) (word : Word) : Statement (.commandOverrun lanes word) := fun _ => by
  show 1 ≤ 16
  decide

end Sys2Proof.Laws.BurstBound
end

