-- ==== Sys2Proof/Laws/Settled.lean ====
section
/-! SUPPORT. The parts of the end of an event where nothing is due: each leaves the state as it is. -/

namespace Sys2Proof.Machine

theorem splitDecided_of_undecided (q : List QEntry) (h : (q.head?.all fun e => !e.isDecided) = true) :
    splitDecided q = ([], q) := by
  cases q with
  | nil => rfl
  | cons e q =>
    obtain ⟨req, ph⟩ := e
    cases ph with
    | decided r => simp [QEntry.isDecided] at h
    | waiting | admitted _ | issued _ _ _ => rfl

/-- The DECIDED entries at the front give their responses, in order (R4). -/
theorem splitDecided_of_front (front : List (Request × Response)) (back : List QEntry)
    (h : (back.head?.all fun y => !y.isDecided) = true) :
    splitDecided (front.map (fun y => (⟨y.1, .decided y.2⟩ : QEntry)) ++ back) = (front.map Prod.snd, back) := by
  induction front with
  | nil => exact splitDecided_of_undecided back h
  | cons y f ih => simp [splitDecided, ih]

/-- A Port Unit with nothing to give or to accept stays as it is (R2, R4). -/
theorem PortUnit.answer_of_settled (u : PortUnit) (h : u.settled = true) : u.answer = u := by
  obtain ⟨q, l, g, ho, n⟩ := u
  simp only [PortUnit.settled, Bool.and_eq_true] at h
  obtain ⟨hq, hl⟩ := h
  have hs := splitDecided_of_undecided q hq
  cases l with
  | none => simp [PortUnit.answer, hs]
  | some r =>
    have hn : ¬ q.length < Config.queueDepth := by simpa using hl
    simp [PortUnit.answer, hs, hn]

section
variable (s : State)

theorem State.answerLinks_of_settled (h : ∀ p, (s.unit p).settled = true) : s.answerLinks = s := by
  rw [State.answerLinks_eq, s.ports.map_unchanged _ fun p => (s.unit p).answer_of_settled (h p)]

theorem State.unit_settled (h : s.settled = true) (p : Port) : (s.unit p).settled = true := by
  simp only [State.settled, Bool.and_eq_true, allPorts, List.all_cons, List.all_nil] at h
  obtain ⟨⟨⟨⟨h0, h1, h2, h3, _⟩, _⟩, _⟩, _⟩ := h
  cases p with
  | p0 => exact h0
  | engine e => cases e <;> assumption

theorem State.tryStop_of_not_due (h : s.stopDue = false) : s.tryStop = s := by
  unfold State.tryStop
  split
  · rename_i hc
    obtain ⟨ho, he, hb⟩ := hc
    simp only [State.stopDue, ho, he, hb, decide_true, Bool.true_and, Bool.or_eq_false_iff] at h
    obtain ⟨hs, hw⟩ := h
    rw [if_neg (by simp [hs]), if_neg (by simp [hw])]
  · rfl

/-- Where STOP is due it completes, what is left in the staging FIFO discarded (R141, R165). -/
theorem State.tryStop_of_due (h : s.stopDue = true) : s.tryStop = s.discardStaged.completeStop := by
  simp only [State.stopDue, Bool.and_eq_true, Bool.or_eq_true, decide_eq_true_eq] at h
  obtain ⟨⟨⟨ho, he⟩, hb⟩, hs⟩ := h
  have hc : s.opState = .stopping ∧ s.enginesIdle ∧ s.bufferEmpty := ⟨ho, he, hb⟩
  unfold State.tryStop
  rw [if_pos hc]
  by_cases hn : s.staged.isEmpty = true
  · rw [if_pos hn]
    simp [State.discardStaged, hn]
  · rw [if_neg hn]
    rcases hs with hs | hs
    · exact absurd hs hn
    · rw [if_pos (by simpa using hs)]

theorem State.followIrq_of_level (h : s.irqAsserted = s.irqLevel) : s.followIrq = s := by
  unfold State.followIrq State.setIrqAsserted
  rw [← h]

theorem State.raiseStatus_of_unchanged (h : s.statusChanged = false) : s.raiseStatus = s := by
  obtain ⟨⟩ := s
  subst h
  rfl

/-- The end of an event that left the ports with nothing to give, where no STOP is due: IRQ_N follows, and a status
update is raised where one is. -/
theorem State.settle_of_ports_settled (hp : ∀ p, (s.unit p).settled = true) (hs : s.stopDue = false) :
    s.settle = s.followIrq.raiseStatus := by
  unfold State.settle
  rw [State.answerLinks_of_settled s hp, State.tryStop_of_not_due s hs]

end

end Sys2Proof.Machine
end

