-- ==== Sys2Proof/Laws/Timers.lean ====
section
/-! SUPPORT. The timebase count takes no part in what ends an event: setting it commutes with each operation that
`State.settle` is made of. -/

namespace Sys2Proof.Machine

theorem State.noteFrom_setNow (s t : State) (n : Micros) :
    (s.setNow n).noteFrom (t.setNow n) = (s.noteFrom t).setNow n := by
  simp only [State.noteFrom]
  show (if t.statusWord = s.statusWord ∧ t.producer = s.producer then _ else _) = _
  split <;> rfl

theorem State.setDone_setNow (s : State) (n : Micros) : (s.setNow n).setDone = s.setDone.setNow n :=
  State.noteFrom_setNow s (s.setCauses { s.causes with done := true }) n

theorem State.setOverflow_setNow (s : State) (n : Micros) : (s.setNow n).setOverflow = s.setOverflow.setNow n :=
  State.noteFrom_setNow s (s.setCauses { s.causes with overflow := true }) n

theorem State.changeCommand_setNow (s : State) (n : Micros) (c : Option Command) :
    (s.setNow n).changeCommand c = (s.changeCommand c).setNow n :=
  State.noteFrom_setNow s (s.setCommand c) n

theorem State.changePortState_setNow (s : State) (n : Micros) (e : Engine) (st : PortState) :
    (s.setNow n).changePortState e st = (s.changePortState e st).setNow n := by
  simp only [State.changePortState]
  show (if (s.eng e).state = st then _ else _) = _
  split
  · rfl
  · exact congrArg (fun z => State.setHold z _ _)
      (State.noteFrom_setNow s (s.setEng e { s.eng e with state := st }) n)

theorem State.changeOp_setNow (s : State) (n : Micros) (st : OpState) :
    (s.setNow n).changeOp st = (s.changeOp st).setNow n := by
  simp only [State.changeOp]
  show (if s.opState = st then _ else _) = _
  split
  · rfl
  · exact congrArg (fun z => State.endHolds z _) (State.noteFrom_setNow s (s.setOpState st) n)

theorem State.raiseStatus_setNow (s : State) (n : Micros) : (s.setNow n).raiseStatus = s.raiseStatus.setNow n := by
  simp only [State.raiseStatus]
  show (if (s.statusChanged && s.reporting && !s.statusWaiting) = true then _ else _) = _
  split <;> rfl

theorem State.withdrawStatus_setNow (s : State) (n : Micros) :
    (s.setNow n).withdrawStatus = s.withdrawStatus.setNow n := by
  simp only [State.withdrawStatus]
  show (if s.statusWaiting = true then _ else _) = _
  split <;> rfl

theorem State.finalResult_setNow (s : State) (n : Micros) (code : BitVec 8) (o : CommandOutcome) (detail : Nat) :
    (s.setNow n).finalResult code o detail = (s.finalResult code o detail).setNow n := by
  have raises : ∀ (s : State) k a b d, (s.setNow n).raiseCtl k a b d = (s.raiseCtl k a b d).setNow n :=
    fun _ _ _ _ _ => rfl
  have ends : ∀ (s : State) f, (s.setNow n).endHolds f = (s.endHolds f).setNow n := fun _ _ => rfl
  have reads : ∀ (s : State) k, (s.setNow n).blockAddr k = s.blockAddr k := fun _ _ => rfl
  simp only [State.finalResult, State.raiseResult, State.withdrawStatus_setNow, raises, ends, reads,
    State.changeCommand_setNow, State.setDone_setNow]

theorem State.discardStaged_setNow (s : State) (n : Micros) :
    (s.setNow n).discardStaged = s.discardStaged.setNow n := by
  simp only [State.discardStaged]
  show (if s.staged.isEmpty = true then _ else _) = _
  split
  · rfl
  · exact State.setOverflow_setNow (s.setStaged []) n

theorem State.completeStop_setNow (s : State) (n : Micros) :
    (s.setNow n).completeStop = s.completeStop.setNow n := by
  have refuses : ∀ (s : State), (s.setNow n).refuseEngineEntries QEntry.isWaiting .notActive =
      (s.refuseEngineEntries QEntry.isWaiting .notActive).setNow n := fun _ => rfl
  have empties : ∀ (s : State), (s.setNow n).emptyAllWindows = s.emptyAllWindows.setNow n := fun _ => rfl
  have stops : ∀ (s : State), (s.setNow n).setNextExpiry none = (s.setNextExpiry none).setNow n := fun _ => rfl
  have answers : ∀ (s : State), (s.setNow n).answerLinks = s.answerLinks.setNow n := fun _ => rfl
  simp only [State.completeStop, State.disableEngines, refuses, empties, stops, answers,
    State.changePortState_setNow, State.changeOp_setNow, State.finalResult_setNow]

theorem State.tryStop_setNow (s : State) (n : Micros) : (s.setNow n).tryStop = s.tryStop.setNow n := by
  simp only [State.tryStop]
  show (if s.opState = .stopping ∧ s.enginesIdle ∧ s.bufferEmpty then
    (if s.staged.isEmpty = true then _ else if (!s.writingHead && s.ringFull) = true then _ else _) else _) = _
  split
  · split
    · exact State.completeStop_setNow s n
    · split
      · rw [State.discardStaged_setNow, State.completeStop_setNow]
      · rfl
  · rfl

/-- What ends an event neither reads nor moves the count (R177). -/
theorem State.settle_setNow (s : State) (n : Micros) : (s.setNow n).settle = s.settle.setNow n := by
  have answers : ∀ (s : State), (s.setNow n).answerLinks = s.answerLinks.setNow n := fun _ => rfl
  have follows : ∀ (s : State), (s.setNow n).followIrq = s.followIrq.setNow n := fun _ => rfl
  simp only [State.settle, answers, follows, State.tryStop_setNow, State.raiseStatus_setNow]

end Sys2Proof.Machine
end

