-- ==== Sys2Proof/Tests/Slice0.lean ====
section
/-! SUPPORT. Tests: an ill-formed term for each well-formedness check; one or two single steps for each command, most
of them taken from the worked examples of the spec; and for each obligation with hypotheses a state and operands that
meet them. -/

namespace Sys2Proof.Tests

open Sys2Proof.Machine

/-! ### Well-formedness: each check refuses an ill-formed term -/

theorem test_wf_request_without_beats : Instr.wf (.requestAccept .p0 ⟨.read, 0, 0, []⟩) = false := by decide

theorem test_wf_request_of_17_beats : Instr.wf (.requestAccept .p0 ⟨.read, 0, 17, []⟩) = false := by decide

theorem test_wf_locked_request_of_two_beats : Instr.wf (.requestAccept .p0 ⟨.lockRead, 0, 2, []⟩) = false := by decide

theorem test_wf_write_without_its_data : Instr.wf (.requestAccept .p0 ⟨.write, 0, 1, []⟩) = false := by decide

theorem test_wf_read_with_data : Instr.wf (.requestAccept .p0 ⟨.read, 0, 1, [⟨0, 15⟩]⟩) = false := by decide

theorem test_wf_answer_of_17_words :
    ([Instr.pieceAnswer, .descriptorFetchAnswer, .startReadAnswer, .reloadMapReadAnswer,
      .configurePortReadAnswer].map fun c => (c (.ok (List.replicate 17 0))).wf) =
      [false, false, false, false, false] := by decide

theorem test_wf_unknown_command_of_a_known_code : Instr.wf (.unknownCommand 11) = false := by decide

theorem test_wf_malformed_without_lanes_or_covered :
    Instr.wf (.malformed 0 1) = false ∧ Instr.wf (.malformed 15 1) = false := by decide

theorem test_wf_ignored_command_of_another_code : Instr.wf (.ignoredCommand 1) = false := by decide

theorem test_wf_overrun_without_lanes_or_ignored :
    Instr.wf (.commandOverrun 0 1) = false ∧ Instr.wf (.commandOverrun 15 64) = false := by decide

theorem test_wf_live_words_without_lanes :
    Instr.wf (.consumer 0 1) = false ∧ Instr.wf (.enable 0 1) = false ∧ Instr.wf (.acknowledge 0 1) = false := by
  decide

/-! ### States to test on -/

/-- The state a command leads to in one step. -/
def ran (c : Instr) (s : State) : Option State :=
  match step { s with pending := [c] } with
  | .next t => some t
  | .fault _ | .refused _ => none

/-- The data words of the controller-originated queue, request by request, after a command. -/
def queuedBy (c : Instr) (s : State) : Option (List (CtlKind × Word × List Word)) :=
  (ran c s).map fun t => t.ctl.map fun r => (r.kind, r.addr, r.data.map Beat.data)

/-- A read of one or more words at a byte address. -/
def readAt (a n : Nat) : Request := ⟨.read, BitVec.ofNat 30 (a / 4), n, []⟩

/-- A write of copies of one word at a byte address, all lanes written. -/
def writeAt (a n : Nat) (w : Word) : Request := ⟨.write, BitVec.ofNat 30 (a / 4), n, List.replicate n ⟨w, 15⟩⟩

/-- The map of 5.6. -/
def map56 : AttributeMap := ⟨⟨⟨true, 0x40000, 0xFC000, .ordered⟩, ⟨true, 0x42000, 0xFF000, .hole⟩,
  ⟨true, 0, 0xFFF00, .ordered⟩, ⟨true, 0x50000, 0xFFFFF, .hole⟩, ⟨false, 0, 0, .ordered⟩,
  ⟨true, 0x0000F, 0x0000F, .hole⟩, ⟨false, 0, 0, .ordered⟩, ⟨false, 0, 0, .ordered⟩⟩, true⟩

/-- An OPEN port in error mode RECORD with H 5, L 1 and a lock limit of 20. -/
def openUnit : EngineUnit := ⟨.opened, ⟨true, false, 5, 1, 20⟩, 0, eightOf Window.reset⟩

/-- ACTIVE with the geometries and the map of 5.6. -/
def active : State := { State.reset with
  anc := 1, opState := .active, table := some ⟨0x00101000, 32⟩, ring := some ⟨0x00102000, 64⟩, map := map56
  engines := ⟨openUnit, openUnit, openUnit⟩, p0LockLimit := 20, interval := 100, nextExpiry := some 2000
  reporting := true }

/-- The checked descriptor of selector 77 in 3.10. -/
def ring77 : Checked := ⟨.rotating 4 4 56 50, true, true, false, 0x4A000000, 64⟩

/-- The checked descriptor of selector 30 in 7.9, of one granule. -/
def line30 : Checked := ⟨.linear, true, true, true, 0x09000000, 1⟩

/-- `s` with a window set. -/
def withWindow (s : State) (e : Engine) (w : Index8) (v : Window) : State := s.setWindow e w v

/-- The state of 3.10: window P3/1 VALID with selector 77 and rotation 50. -/
def active310 : State := withWindow active .p3 1 ⟨.valid 77 ring77, 50⟩

/-- `s` with a request WAITING at the head of a port's queue. -/
def waiting (s : State) (p : Port) (r : Request) : State := s.setQueue p [⟨r, .waiting⟩]

/-- `s` with a queue entry in a phase alone in its port's queue. -/
def holding (s : State) (p : Port) (r : Request) (ph : Phase) : State := s.setQueue p [⟨r, ph⟩]

/-- `s` with one request issued for an owner. -/
def issuing (s : State) (write : Bool) (beats : Nat) (o : Owner) : State :=
  s.setIssued [⟨write, 0x00100000, beats, [], o, false⟩]

/-- The first sixteen configuration words that START reads for the state `active`, with its table of 32. -/
def config16 : List Word := [0x00102000, 2, 0x00101000, 32, 0x00640001, 0x14000000, 0x14010501, 0x14010501,
  0x14010501, 0, 0, 0, 0x40000001, 0xFC000000, 0x42000005, 0xFF000000]

/-- The other twelve. -/
def config12 : List Word := [0x00000001, 0xFFF00000, 0x50000005, 0xFFFFF000, 0, 0, 0x0000F005, 0x0000F000, 0, 0, 0, 0]

/-- START in progress from HALTED with its first read answered. -/
def starting : State := issuing { State.reset with
  anc := 1, opState := .loading, command := some (.start .halted (some (.ok config16))), reporting := true
  causes := ⟨false, false, false, false, true⟩, irqAsserted := true } false 12 (.ctl .startRead)

/-- A fault record. -/
def record (k : FaultKind) (a : Access) : FaultRecord := ⟨k, .engine .p2, some 3, a, 4, 1, 0x60000100, none, none, 4100⟩

/-- The ring of 8.8, with records staged and the consumer at 8. -/
def full88 (staged : List Staged) (producer : Nat) : State := { active with
  ring := some ⟨0x00300000, 16⟩, producer := producer, consumer := 8, staged := staged }

/-- The lock of 7.9 at a timebase count: P1 in HOLDING on 0900_0080h since 1000. -/
def locked79 (now : Micros) : State := { active with
  lock := some ⟨.engine .p1, 0x09000080, 1000, 20⟩, now := now
  seqs := active.seqs.set (.engine .p1) (.holding ⟨0x09000080, 0x40000080, some ⟨2, 30⟩⟩) }

/-! ### One step of each command -/

theorem test_reset_assert_holds_every_block :
    ran .resetAssert active = some { State.reset with inReset := true } := by decide +kernel

theorem test_reset_release_samples_the_straps :
    ran (.resetRelease 5 2) { State.reset with inReset := true } = some { State.reset with anc := 5, div := 2 } := by
  decide +kernel

theorem test_timebase_wraps : (ran .timebaseTick { State.reset with now := 0xFFFF }).map State.now = some 0 := by
  decide +kernel

theorem test_fifth_request_stands_on_the_link :
    let q := List.replicate 4 (⟨readAt 0 1, .waiting⟩ : QEntry)
    (ran (.requestAccept .p0 (readAt 4 1)) (State.reset.setQueue .p0 q)).map (fun t =>
      ((t.queueOf .p0).length, (t.unit .p0).link)) = some (4, some (readAt 4 1)) := by decide +kernel

theorem test_request_accepted_in_boot :
    (ran (.requestAccept (.engine .p2) (readAt 4 1)) State.reset).map (fun t => t.queueOf (.engine .p2)) =
      some [⟨readAt 4 1, .waiting⟩] := by decide +kernel

/-- Burst B of 3.10: two buffer entries, and DONE at admission. -/
theorem test_admission_posts_two_pieces :
    (ran (.admission (.engine .p3)) (waiting active310 (.engine .p3) (writeAt 0x200009E0 16 7))).map (fun t =>
      (t.postedEntries.map fun v => (v.piece.addr, v.piece.beats, v.logical), (t.unit (.engine .p3)).given)) =
      some ([(0x4A003BE0, 8, 0x200009E0), (0x4A000400, 8, 0x20000A00)], [.done []]) := by decide +kernel

/-- Burst C of 3.10: FAULT(SPLIT), with its record raised as a ring write. -/
theorem test_admission_refuses_a_split :
    (ran (.admission (.engine .p3)) (waiting active310 (.engine .p3) (readAt 0x20003BF0 8))).map (fun t =>
      ((t.unit (.engine .p3)).given, t.staged)) =
      some ([.refused (.fault .split)],
        [⟨⟨.split, .engine .p3, some 1, .read, 8, 1, 0x20003BF0, none, some 77, 0⟩, true⟩]) := by decide +kernel

/-- Event 2 of 7.9: the grant of the LOCK_READ begins the lock. -/
theorem test_grant_begins_the_lock :
    (ran .grant (holding { locked79 1000 with
        lock := none
        seqs := active.seqs.set (.engine .p1) (.opening ⟨0x09000080, 0x40000080, some ⟨2, 30⟩⟩) } (.engine .p1)
      ⟨.lockRead, 0x10000020, 1, []⟩ (.admitted ⟨0, ⟨0x09000080, 1, []⟩, none, some ⟨2, 30⟩, true⟩))).map (fun t =>
        (t.lock, t.roundRobin, t.issued)) =
      some (some ⟨.engine .p1, 0x09000080, 1000, 20⟩, .engine .p1,
        [⟨false, 0x09000080, 1, [], .piece (.engine .p1) 0, false⟩]) := by decide +kernel

theorem test_grant_fills_in_the_status_update :
    (ran .grant { active with ctl := [active.statusRequest] }).map State.issued =
      some [⟨true, 0x00100008, 2, [⟨0x00150002, 15⟩, ⟨0, 15⟩], .ctl .statusUpdate, false⟩] := by decide +kernel

/-- The lock of 7.9, with the proof that nothing is due in it. -/
def readyLocked : Subtype fun s : State => s.ready = true := ⟨locked79 1020, by decide +kernel⟩

/-- Event 7 of 8.8: the answered write of 10 into CONSUMER is taken, and the ring write of the head is raised. -/
theorem test_piece_answer_hands_over_consumer :
    (ran (.pieceAnswer (.ok [])) (issuing (holding (full88 [⟨record .noWindow .read, false⟩] 7) .p0
        (writeAt 0x00100010 1 10) (.issued ⟨0, ⟨0x00100010, 1, [⟨10, 15⟩]⟩, none, none, false⟩ false none))
        true 1 (.piece .p0 0))).map (fun t =>
      (t.consumer, t.ctl.map fun r => (r.kind, r.addr), t.staged.map Staged.writing, (t.unit .p0).given)) =
      some (10, [(.recordWrite, 0x00300070)], [true], [.done []]) := by decide +kernel

theorem test_second_piece_answers_the_entry :
    (ran (.pieceAnswer (.ok [3])) (issuing (holding active (.engine .p3) (readAt 0x200009FC 2)
        (.issued ⟨4, ⟨0x4A003BFC, 1, []⟩, some ⟨0x4A000400, 1, []⟩, some ⟨1, 77⟩, false⟩ true (some (.ok [2]))))
        false 1 (.piece (.engine .p3) 4))).map (fun t => (t.unit (.engine .p3)).given) = some [.done [2, 3]] := by
  decide +kernel

theorem test_posted_entry_answered_error :
    (ran (.postedEntryAnswer .error) (issuing { active with
        buffer := active.buffer.set 2 (some ⟨.engine .p3, 0, 0x20000A00, ⟨0x4A000400, 8, []⟩, some ⟨1, 77⟩, true,
          false⟩) } true 8 (.posted 2))).map (fun t => (t.freeEntries, t.staged.map Staged.record)) =
      some (8, [⟨.deferredWrite, .engine .p3, some 1, .write, 8, 1, 0x20000A00, some 0x4A000400, some 77, 0⟩]) := by
  decide +kernel

/-- The fetch of 2.8 for a window of P1, and the same descriptor for P2. -/
def loading28 (e : Engine) : State := issuing { withWindow active e 0 ⟨.fetching .load 40 false, 0⟩ with
  command := some (.loadWindow e 0), fetches := [⟨e, 0, 40, .load, true⟩] } false 4 (.ctl .fetch)

/-- The four words of the descriptor of 2.7. -/
def words27 : List Word := [0x300000AF, 15, 0x00020002, 5]

theorem test_fetch_completes_a_load :
    (ran (.descriptorFetchAnswer (.ok words27)) (loading28 .p1)).map (fun t => (t.window .p1 0, t.command)) =
      some (⟨.valid 40 ⟨.rotating 2 2 12 5, true, true, false, 0x30000000, 16⟩, 5⟩, none) := by decide +kernel

theorem test_fetch_refuses_a_port_not_listed :
    queuedBy (.descriptorFetchAnswer (.ok words27)) (loading28 .p2) =
      some [(.resultWrite, 0x00100004, [0x00020A03]), (.statusUpdate, 0x00100008, [])] := by decide +kernel

theorem test_start_succeeds :
    (ran (.startReadAnswer (.ok config12)) starting).map (fun t =>
      (t.opState, t.map, decide (t.table = active.table ∧ t.ring = active.ring), t.engines, t.nextExpiry)) =
      some (.active, map56, true, active.engines, some 100) := by decide +kernel

/-- The end of 5.6: with the base 0000_2000h range 5 matches the page of the ring, and START fails with detail 8. -/
theorem test_start_finds_a_hole_in_the_zone :
    queuedBy (.startReadAnswer (.ok (config12.set 6 0x00002005))) starting =
      some [(.resultWrite, 0x00100004, [0x00080B01]), (.statusUpdate, 0x00100008, [])] := by decide +kernel

theorem test_reload_map_ends :
    (ran (.reloadMapReadAnswer (.ok (config16.drop 12 ++ config12))) (issuing { active with
        map := ⟨eightOf AttrRange.reset, false⟩, command := some (.reloadMap (some (.ok [1]))) } false 16
        (.ctl .reloadRead))).map State.map = some map56 := by decide +kernel

theorem test_configure_port_checks_the_marks :
    queuedBy (.configurePortReadAnswer (.ok [0x14050501])) (issuing { active with
        command := some (.configurePort (.engine .p1)) } false 1 (.ctl .portRead)) =
      some [(.resultWrite, 0x00100004, [0x00090B09]), (.statusUpdate, 0x00100008, [])] := by decide +kernel

/-- Event 8 of 8.8: the head is removed, the producer becomes 8, and the next ring write is raised. -/
theorem test_ring_write_answered :
    (ran (.ringWriteAnswer .ok) (issuing { full88 [⟨record .noWindow .read, true⟩, ⟨record .noWindow .write, false⟩] 7
        with consumer := 10, enables := ⟨false, true, true, true, true⟩ } true 4 (.ctl .recordWrite))).map (fun t =>
      (t.producer, t.staged, t.ctl.map fun r => (r.kind, r.addr))) =
      some (8, [⟨record .noWindow .write, true⟩], [(.recordWrite, 0x00300080), (.statusUpdate, 0x00100008)]) := by
  decide +kernel

theorem test_status_update_answered_error_halts :
    (ran (.statusUpdateAnswer .error) (issuing active true 2 (.ctl .statusUpdate))).map (fun t =>
      (t.opState, t.causes.halt, t.irqAsserted, t.ctl.map CtlRequest.kind)) =
      some (.halted, true, true, [.statusUpdate]) := by decide +kernel

theorem test_result_write_answered :
    ran (.resultWriteAnswer .ok) (issuing active true 1 (.ctl .resultWrite)) = some active := by decide +kernel

theorem test_lock_timer_expires :
    (ran .lockTimerExpiry (locked79 1020)).map (fun t => (t.lock, t.seqOf (.engine .p1), t.staged.map Staged.record)) =
      some (none, .free true, [⟨.lockBroken, .engine .p1, some 2, .lockRead, 1, 1, 0x40000080, some 0x09000080, some 30,
        1020⟩]) := by decide +kernel

theorem test_lock_timer_not_yet_due : ran .lockTimerExpiry (locked79 1019) = some (locked79 1019) := by decide +kernel

/-- Expiry 2100 of 9.6: a QUIET port with a counter above L stays QUIET; at L it becomes OPEN. -/
theorem test_interval_expires :
    ([11, 1].map fun n => (ran .intervalExpiry { active with
        now := 2000, engines := { active.engines with p3 := { openUnit with state := .quiet, storm := n } } }).map
      (fun t => ((t.eng .p3).state, (t.eng .p3).storm, t.nextExpiry))) =
      [some (.quiet, 0, some 2100), some (.opened, 0, some 2100)] := by decide +kernel

/-- START in progress, with the proof that nothing is due in it. -/
def readyStarting : Subtype fun s : State => s.ready = true := ⟨starting, by decide +kernel⟩

theorem test_start_is_taken :
    queuedBy .start { State.reset with anc := 1 } = some [(.resultWrite, 0x00100004, [0x00000101]),
      (.startRead, 0x00100020, []), (.startRead, 0x00100060, []), (.statusUpdate, 0x00100008, [])] := by decide +kernel

/-- An answered burst of P0 over STOP, CONSUMER 7, ENABLE of DONE and ACKNOWLEDGE of DONE, with two records staged that a
full ring keeps: STOP completes before CONSUMER is acted on (R156, R165). -/
def stopBurst : State :=
  let data : List Beat := [⟨2, 15⟩, ⟨0, 15⟩, ⟨0, 15⟩, ⟨0, 15⟩, ⟨7, 15⟩, ⟨4, 15⟩, ⟨4, 15⟩]
  issuing (holding (full88 [⟨record .noWindow .read, false⟩, ⟨record .noWindow .write, false⟩] 7) .p0
    ⟨.write, 0x40000, 7, data⟩ (.issued ⟨0, ⟨0x00100000, 7, data⟩, none, none, false⟩ false none)) true 7 (.piece .p0 0)

theorem test_stop_completes_at_once :
    (ran .stop active).map (fun t => (t.opState, t.command, t.nextExpiry, t.engines.p1.state)) =
      some (.boot, none, none, .disabled) ∧
    (ran (.pieceAnswer (.ok [])) stopBurst).map (fun t =>
      (t.opState, t.consumer, t.enables.done, t.causes.done, t.causes.misuse)) =
      some (.boot, 8, true, false, false) := by decide +kernel

theorem test_stop_is_refused_while_a_lock_is_held :
    queuedBy .stop (locked79 1001) =
      some [(.resultWrite, 0x00100004, [0x00000802]), (.statusUpdate, 0x00100008, [])] := by decide +kernel

theorem test_load_window_is_taken :
    queuedBy (.loadWindow (.engine .p3) 1 31) active = some [(.resultWrite, 0x00100004, [0x00000103]),
      (.fetch, 0x001011F0, []), (.statusUpdate, 0x00100008, [])] := by decide +kernel

theorem test_clear_window_is_taken :
    (ran (.clearWindow (.engine .p3) 1) active310).map (fun t => t.window .p3 1) = some ⟨.empty, 0⟩ := by decide +kernel

theorem test_rotate_is_taken :
    (ran (.rotate (.engine .p3) 1 6) active310).map (fun t => t.window .p3 1) = some ⟨.valid 77 ring77, 6⟩ := by
  decide +kernel

theorem test_rotate_checks_its_argument :
    queuedBy (.rotate (.engine .p3) 1 56) active310 =
      some [(.resultWrite, 0x00100004, [0x00000605]), (.statusUpdate, 0x00100008, [])] ∧
    queuedBy (.rotate (.engine .p3) 2 6) active310 =
      some [(.resultWrite, 0x00100004, [0x00000705]), (.statusUpdate, 0x00100008, [])] := by decide +kernel

theorem test_invalidate_marks_the_holder :
    (ran (.invalidate 77) { active310 with table := some ⟨0x00101000, 78⟩ }).map (fun t => t.window .p3 1) =
      some ⟨.stale 77 ring77, 50⟩ := by decide +kernel

theorem test_invalidate_all_marks_every_window :
    (ran .invalidateAll active310).map (fun t => (t.window .p3 1, t.window .p3 0)) =
      some (⟨.stale 77 ring77, 50⟩, ⟨.empty, 0⟩) := by decide +kernel

theorem test_release_port_is_taken :
    (ran (.releasePort (.engine .p1)) { active with engines := { active.engines with
        p1 := { openUnit with state := .blocked, storm := 9 } } }).map (fun t => ((t.eng .p1).state, (t.eng .p1).storm)) =
      some (.opened, 0) := by decide +kernel

theorem test_configure_port_is_taken :
    queuedBy (.configurePort (.engine .p3)) active = some [(.resultWrite, 0x00100004, [0x00000109]),
      (.portRead, 0x00100040, []), (.statusUpdate, 0x00100008, [])] := by decide +kernel

theorem test_reload_map_is_taken :
    queuedBy .reloadMap active = some [(.resultWrite, 0x00100004, [0x0000010A]), (.reloadRead, 0x00100030, []),
      (.reloadRead, 0x00100050, []), (.statusUpdate, 0x00100008, [])] := by decide +kernel

theorem test_drain_of_an_empty_buffer_completes :
    queuedBy .drain active = some [(.resultWrite, 0x00100004, [0x0000010B]), (.resultWrite, 0x00100004, [0x0000020B]),
      (.statusUpdate, 0x00100008, [])] := by decide +kernel

theorem test_unknown_command_is_refused :
    queuedBy (.unknownCommand 12) State.reset =
      some [(.resultWrite, 4, [0x0000040C]), (.statusUpdate, 8, [])] := by decide +kernel

theorem test_malformed_command_is_refused :
    queuedBy (.malformed 3 1) State.reset =
      some [(.resultWrite, 4, [0x00000300]), (.statusUpdate, 8, [])] := by decide +kernel

theorem test_code_zero_is_ignored : ran (.ignoredCommand 64) active = some active := by decide +kernel

theorem test_command_overrun :
    (ran (.commandOverrun 15 2) { active with command := some .drain }).map (fun t => (t.command, t.causes.overrun)) =
      some (some .drain, true) := by decide +kernel

/-- The state of 3.10, with the proof that nothing is due in it. -/
def ready310 : Subtype fun s : State => s.ready = true := ⟨active310, by decide +kernel⟩

/-- 11.4, event 3: CONSUMER 6 clears QUEUE, and IRQ_N is deasserted. -/
theorem test_consumer_clears_queue :
    (ran (.consumer 15 6) { active with
        producer := 6, consumer := 5, enables := ⟨true, true, false, false, false⟩, irqAsserted := true }).map (fun t =>
      (t.consumer, t.irqAsserted)) = some (6, false) := by decide +kernel

theorem test_consumer_past_the_producer_is_misuse :
    (ran (.consumer 15 7) { active with producer := 6, consumer := 5 }).map (fun t => (t.consumer, t.causes.misuse)) =
      some (5, true) := by decide +kernel

theorem test_enable_asserts_the_line :
    (ran (.enable 15 0x3F) { active with producer := 6 }).map (fun t => (t.enables, t.irqAsserted)) =
      some (⟨true, true, true, true, true⟩, true) := by decide +kernel

/-- 11.4, event 6: an ACKNOWLEDGE of two lanes clears nothing and sets MISUSE. -/
theorem test_acknowledge_of_two_lanes :
    (ran (.acknowledge 3 0x3F) { active with causes := ⟨true, false, false, false, false⟩ }).map State.causes =
      some ⟨true, false, false, true, false⟩ := by decide +kernel

theorem test_acknowledge_clears_but_halt :
    (ran (.acknowledge 15 0x3F) { active with causes := ⟨true, true, true, true, true⟩, irqAsserted := true }).map
      State.causes = some ⟨false, false, false, false, true⟩ := by decide +kernel

theorem test_no_word_spells_a_command : decodeTableWord 32 1 = none ∧ active.withFetchWord 32 1 = active := by
  decide +kernel

/-- The map of 2.7: the offsets 851h and A10h, and the granules 8 and 9, under rotation 5. -/
theorem test_region_map_of_a_rotating_region :
    let d : Checked := ⟨.rotating 2 2 12 5, true, true, false, 0x30000000, 16⟩
    [0x850, 0xA10, 0x8FC, 0x900, 0x100, 0xE00].map (fun o => (d.translate 5 o 1 []).1.addr) =
      [0x30000D50, 0x30000310, 0x30000DFC, 0x30000200, 0x30000100, 0x30000E00] := by decide +kernel

/-- The findings of 5.6 for its requests 6, 8, 9 and 10. -/
theorem test_classification_of_requests :
    active.classify .write ⟨0, 3⟩ ⟨0x44003FE0, 8, []⟩ (some ⟨0x43FFE000, 8, []⟩) =
      .passed ⟨0x44003FE0, 8, []⟩ (some ⟨0x43FFE000, 8, []⟩) (some ⟨0, 3⟩) false ∧
    ([0x001000F8, 0x00100200].map fun a => match active.verdict .p0 (writeAt a 4 0) with
      | .passed _ _ _ posted => some posted
      | _ => none) = [some false, some true] ∧
    active.verdict .p0 (readAt 0x42000100 1) = .faulted .hole none none (some 0x42000100) := by decide +kernel

/-! ### Witnesses: the hypotheses of each obligation are met

One theorem for each obligation, a conjunction that gives a state and operands for each of its clauses, at the edges of
their ranges. -/

/-- The state a command answers, put to a test. -/
def answers (c : Instr) (s : State) (f : State → Bool) : Bool :=
  match exec c s with
  | .next t => f t
  | .fault _ | .refused _ => false

/-- A step of the command put at the front of the queue gives a next state. -/
def stepsOn (c : Instr) (s : State) : Bool :=
  match step { s with pending := [c] } with
  | .next _ => true
  | .fault _ | .refused _ => false

theorem witness_StepRunsTheFrontCommand :
    ({ active with pending := [.grant, .stop] } : State).pending = .grant :: [.stop] ∧ active.pending = [] := by
  decide +kernel

theorem witness_OnlyTheirOwnEventsChangeThem :
    (starting.causes.halt && answers (.startReadAnswer (.ok config12)) starting fun t => !t.causes.halt) = true ∧
    (answers (.enable 15 31) active fun t => decide (t.enables ≠ active.enables)) = true ∧
    (answers (.resetRelease 5 2) { State.reset with inReset := true } fun t => decide (t.anc ≠ 0)) = true ∧
    (answers (.ringWriteAnswer .ok) (issuing (full88 [⟨record .noWindow .read, true⟩] 15) true 4 (.ctl .recordWrite))
      fun t => decide (t.producer ≠ 15)) = true := by decide +kernel

/-- The state of 5.6, with the proof that nothing is due in it. -/
def readyActive : Subtype fun s : State => s.ready = true := ⟨active, by decide +kernel⟩

theorem witness_EveryStepLeavesNothingDue :
    active.settled = true ∧ stepsOn .stop active = true ∧
    ({ State.reset with statusChanged := true } : State).settled = false := by decide +kernel

/-- Every capacity used up: four entries, eight requests, four records, one status update. -/
def crowded : State := { full88 (List.replicate 4 ⟨record .noWindow .read, false⟩) 7 with
  ports := active.ports.map fun u => { u with queue := List.replicate 4 ⟨readAt 0 1, .waiting⟩, link := some (readAt 0 1) }
  issued := List.replicate 8 ⟨false, 0, 4, [], .ctl .fetch, false⟩, ctl := [active.statusRequest] }

theorem witness_CapacitiesAndRingAreKept :
    crowded.withinCapacity = true ∧ stepsOn (.requestAccept .p0 (readAt 0 1)) crowded = true ∧
    crowded.indicesInRing = true ∧ crowded.writesHeadOnly = true := by decide +kernel

theorem witness_RotationsStayBelowTheMiddle :
    (withWindow active .p3 1 ⟨.valid 77 ring77, 55⟩).rotationsFit = true ∧
    stepsOn (.rotate (.engine .p3) 1 55) (withWindow active .p3 1 ⟨.valid 77 ring77, 55⟩) = true := by decide +kernel

theorem witness_LockAndSequencesAgree :
    (locked79 1020).lockAgrees = true ∧ stepsOn .lockTimerExpiry (locked79 1020) = true := by decide +kernel

/-- A request of P3 held on window 1, FETCHING for a LOAD. -/
def heldOnLoad : State := issuing { withWindow (waiting active (.engine .p3) (readAt 0x20000000 1)) .p3 1
    ⟨.fetching .load 77 false, 0⟩ with
  command := some (.loadWindow .p3 1), fetches := [⟨.p3, 1, 77, .load, true⟩] } false 4 (.ctl .fetch)
    |>.setHold (.engine .p3) (some (.window 1))

theorem witness_CommandsAndHoldsAgree :
    heldOnLoad.holdsStand = true ∧ heldOnLoad.commandAgrees = true ∧
    stepsOn (.descriptorFetchAnswer .error) heldOnLoad = true := by decide +kernel

theorem witness_EngineRequestsKeepOutOfTheZone :
    let s := holding active (.engine .p3) (readAt 0 1) (.admitted ⟨0, ⟨0x00101200, 1, []⟩, none, some ⟨0, 3⟩, false⟩)
    s.isolated = true ∧ stepsOn .stop s = true := by decide +kernel

theorem witness_HoleRangesKeepOffTheZone :
    active.zoneOpen = true ∧ stepsOn .grant active = true ∧ active.inZone 0x001011FF = true ∧
    active.inZone 0x00101200 = false := by decide +kernel

theorem witness_OperatingStateTransitions :
    active.commandAgrees = true ∧ stepsOn .stop active = true ∧ starting.commandAgrees = true ∧
    stepsOn (.startReadAnswer .error) starting = true := by decide +kernel

theorem witness_IrqFollowsCausesAndEnables :
    (active.settled && answers (.enable 15 1) { active with producer := 63 } fun t => t.irqAsserted) = true ∧
    (answers (.enable 15 1) active fun t => !t.irqAsserted) = true := by decide +kernel

theorem witness_StatusUpdateFollowsEveryChange :
    (active.settled && answers .stop active fun t => t.reporting && decide (t.statusWord ≠ active.statusWord)) = true ∧
    (answers (.ringWriteAnswer .ok) (issuing (full88 [⟨record .noWindow .read, true⟩] 15) true 4 (.ctl .recordWrite))
      fun t => t.reporting && decide (t.producer ≠ 15)) = true := by decide +kernel

theorem witness_ResetHoldsEveryBlock :
    ({ State.reset with inReset := true } : State).inReset = true ∧ active.inReset = false ∧
    Instr.wf (.requestAccept .p0 (readAt 0 16)) = true := by decide +kernel

theorem witness_TimebaseTicks :
    let interval := { active with now := 2000 }
    let both := { locked79 1020 with nextExpiry := some 1020 }
    active.ready = true ∧ active.lockDue = false ∧ active.intervalDue = false ∧
    (locked79 1020).ready = true ∧ (locked79 1020).lockDue = true ∧ (locked79 1020).intervalDue = false ∧
    (ran .lockTimerExpiry (locked79 1020)).isSome = true ∧
    interval.ready = true ∧ interval.lockDue = false ∧ interval.intervalDue = true ∧
    (ran .intervalExpiry interval).isSome = true ∧
    both.ready = true ∧ both.lockDue = true ∧ both.intervalDue = true ∧
    ((ran .lockTimerExpiry { both with freeCounter := 1 }).bind (ran .intervalExpiry)).isSome = true ∧
    ((ran .intervalExpiry { both with freeCounter := 1 }).bind (ran .lockTimerExpiry)).isSome = true := by
  decide +kernel

theorem witness_RequestsAreAccepted :
    let s := active.setQueue .p0 (List.replicate 3 ⟨readAt 0 1, .waiting⟩)
    let t := active.setQueue .p0 (List.replicate 4 ⟨readAt 0 1, .waiting⟩)
    s.ready = true ∧ t.ready = true ∧ crowded.ready = true ∧ (readAt 0 16).wf = true ∧ (readAt 0 17).wf = false ∧
    (s.unit .p0).link = none ∧ (s.queueOf .p0).length < 4 ∧ (t.unit .p0).link = none ∧ 4 ≤ (t.queueOf .p0).length ∧
    (crowded.unit .p0).link ≠ none ∧
    ([.done [], .refused .halted].map (fun r => (⟨readAt 0 1, .decided r⟩ : QEntry))) ++ s.queueOf .p0 =
      [(readAt 0 1, Response.done []), (readAt 0 1, .refused .halted)].map (fun y => ⟨y.1, .decided y.2⟩) ++
        s.queueOf .p0 ∧
    ((s.queueOf .p0).head?.all fun y => !y.isDecided) = true ∧
    ((t.queueOf .p0).head?.all fun y => !y.isDecided) = true := by decide +kernel

/-- The crowded state, with the proof that nothing is due in it. -/
def readyCrowded : Subtype fun s : State => s.ready = true := ⟨crowded, by decide +kernel⟩

/-- The hypotheses that every statement about the admission of a port's request shares. -/
def admissible (s : State) (p : Port) (x : QEntry) : Bool :=
  s.ready && decide (s.holdOf p = none) && decide (oldestWaiting (s.queueOf p) = some x)

/-- A read of one word at logical 2000_0000h, WAITING: window 1, offset 0. -/
def through1 : QEntry := ⟨readAt 0x20000000 1, .waiting⟩

/-- `s` with that read WAITING at P3. -/
def asking (s : State) : State := waiting s (.engine .p3) through1.req

/-- `active` with P3 in a port state. -/
def activeWith (st : PortState) : State :=
  { active with engines := { active.engines with p3 := { openUnit with state := st, storm := 255 } } }

theorem witness_EngineRequestsAreRefused :
    ([OpState.boot, .stopping, .halted, .active].all fun o =>
      admissible (asking { active with opState := o, lock := none, staged := [⟨record .noWindow .read, false⟩] })
        (.engine .p3) through1) = true ∧
    ([PortState.disabled, .blocked, .quiet].all fun st =>
      admissible (asking (activeWith st)) (.engine .p3) through1) = true := by decide +kernel

/-- P3 asking while its CONFIGURE_PORT is in progress, its hold for it ended by a change of the port state. -/
def lapsed (st : PortState) : State :=
  (asking { activeWith st with command := some (.configurePort (.engine .p3)) }).setHold (.engine .p3)
    (some .configureLapsed)

theorem witness_AdmissionIsHeld :
    let stale := asking (withWindow active .p3 1 ⟨.stale 77 ring77, 55⟩)
    let fetching := asking (withWindow active .p3 1 ⟨.fetching .load 77 true, 0⟩)
    let reloading := asking { active with command := some (.reloadMap none) }
    let configuring := asking { active with command := some (.configurePort (.engine .p3)) }
    let supervisor := waiting { active with command := some (.reloadMap none) } .p0 (readAt 0 1)
    ([PortState.opened, .blocked, .quiet].all fun st => (lapsed st).ready && (lapsed st).configuring .p3 &&
      (lapsed st).holdsStand && decide ((lapsed st).holdOf (.engine .p3) = some .configureLapsed) &&
      decide (oldestWaiting ((lapsed st).queueOf (.engine .p3)) = some through1)) = true ∧
    heldOnLoad.ready = true ∧ heldOnLoad.holdOf (.engine .p3) ≠ none ∧ active.ready = true ∧
    oldestWaiting (active.queueOf .p0) = none ∧
    ([{ asking active with opState := .loading }, reloading, configuring, fetching, stale].all fun s =>
      admissible s (.engine .p3) through1) = true ∧
    admissible supervisor .p0 ⟨readAt 0 1, .waiting⟩ = true ∧ supervisor.reloading = true ∧
    reloading.reloading = true ∧ configuring.configuring .p3 = true ∧ windowIndex through1.req.addr = 1 ∧
    (fetching.eng .p3).state = .opened ∧ fetching.reloading = false ∧ fetching.configuring .p3 = false ∧
    (fetching.window .p3 1).isFetching = true ∧ stale.table = some ⟨0x00101000, 32⟩ ∧
    (stale.window .p3 1).state = .stale 77 ring77 := by decide +kernel

/-- The unchecked states; the last word of a HOLE page; the last word of the zone, in a HOLE page or not. -/
theorem witness_SupervisorPaths :
    State.reset.opState = .boot ∧ active.opState = .active ∧ active.reloading = false ∧
    ((beatBytes (readAt 0x50000FFC 2).addr 2).any fun a => !active.inZone a && decide (active.map.attrOf a = .hole)) =
      true ∧
    ((beatBytes (readAt 0x50001000 16).addr 16).all fun a =>
      active.inZone a || !decide (active.map.attrOf a = .hole)) = true ∧
    ((beatBytes (readAt 0x001000FC 2).addr 2).map active.inZone) =
      [true, true, true, true, false, false, false, false] := by decide +kernel

/-- Through window 1 with its descriptor: EMPTY; RIGHTS; LIMIT from the first byte past the region; SPLIT; then pieces in
the zone and in a HOLE. -/
theorem witness_EngineFaultsInOrder :
    let zoned : Checked := { line30 with base := 0x00101100 }
    let holed : Checked := { line30 with base := 0x50000F00 }
    let s := withWindow active .p3 1 ⟨.valid 3 zoned, 0⟩
    let h := withWindow active .p3 1 ⟨.valid 3 holed, 0⟩
    active.opState = .active ∧ (active.eng .p3).state = .opened ∧ active.reloading = false ∧
    active.configuring .p3 = false ∧ windowIndex 0x20003FFC = 1 ∧ line30.kind = .linear ∧
    ring77.kind = .rotating 4 4 56 50 ∧ (active.window .p3 1).state = .empty ∧
    (active310.window .p3 1).state = .valid 77 ring77 ∧ ring77.grants .unlock = false ∧ ring77.grants .read = true ∧
    ring77.size * 256 ≤ windowOffset 0x20003FFC + 4 * 2 - 1 ∧ windowOffset 0x20003FFC + 4 * 1 - 1 < ring77.size * 256 ∧
    ring77.splits (windowOffset 0x200003FC) (4 * 2) = true ∧ ring77.splits (windowOffset 0x200003FC) (4 * 1) = false ∧
    (s.window .p3 1).state = .valid 3 zoned ∧
    [(⟨0x001011FC, 1, []⟩ : Piece)].find? s.reachesZone = some ⟨0x001011FC, 1, []⟩ ∧
    zoned.translate 0 0xFC 1 [] = (⟨0x001011FC, 1, []⟩, none) ∧
    (h.window .p3 1).state = .valid 3 holed ∧ holed.translate 0 0xFC 1 [] = (⟨0x50000FFC, 1, []⟩, none) ∧
    [(⟨0x50000FFC, 1, []⟩ : Piece)].any h.reachesZone = false ∧
    [(⟨0x50000FFC, 1, []⟩ : Piece)].find? h.reachesHole = some ⟨0x50000FFC, 1, []⟩ := by decide +kernel

theorem witness_EnginePassesOnlyAllowedBytes :
    active310.verdict (.engine .p3) (writeAt 0x200009E0 16 7) =
      .passed ⟨0x4A003BE0, 8, List.replicate 8 ⟨7, 15⟩⟩ (some ⟨0x4A000400, 8, List.replicate 8 ⟨7, 15⟩⟩) (some ⟨1, 77⟩)
        true := by decide +kernel

/-- A burst over the wrap point, and one that ends at the last byte of the region. -/
theorem witness_TranslationFollowsTheRegionMap :
    ring77.sound = true ∧ ring77.allowsRotation 55 = true ∧
    ([(0x9E0, 16), (0x3FC0, 16), (0x3BFC, 1)].all fun x => decide (x.1 % 4 = 0 ∧ 1 ≤ x.2 ∧ x.2 ≤ 16 ∧
      x.1 + 4 * x.2 ≤ ring77.size * 256) && !ring77.splits x.1 (4 * x.2)) = true ∧
    (ring77.translate 50 0x9E0 16 []).2 ≠ none := by decide +kernel

/-- P3 asking through an EMPTY window, with the proof that nothing is due in the state. -/
def readyAsking : Subtype fun s : State => s.ready = true := ⟨asking active, by decide +kernel⟩

/-- The buffer with all but its last entry occupied, and full. -/
def filled (n : Nat) : Eight (Option Posted) :=
  Eight.build fun i => if i.val < n then some ⟨.p0, 0, 0, ⟨0, 1, [⟨0, 15⟩]⟩, none, false, false⟩ else none

/-- `active310` with a request WAITING at P3 and some entries occupied. -/
def routing (r : Request) (n : Nat) : State := { waiting active310 (.engine .p3) r with buffer := filled n }

/-- The verdict is that the request passes steps 1 to 5, posted or not, with one piece or two. -/
def passes (s : State) (r : Request) (posted : Bool) (pieces : Nat) : Bool :=
  admissible s (.engine .p3) ⟨r, .waiting⟩ && decide (s.seqOf (.engine .p3) = .free false) &&
    match s.verdict (.engine .p3) r with
    | .passed a b _ x => decide (x = posted ∧ (piecesOf a b).length = pieces)
    | .refused _ | .faulted _ _ _ _ | .held _ | .refetch _ _ _ => false

theorem witness_PassedRequestsAreRouted :
    let r := writeAt 0x200009E0 16 7
    let one := writeAt 0x200009C0 16 7
    let ordered := writeAt 0x20000000 1 7
    let lock : Request := ⟨.lockRead, 0x08000000, 1, []⟩
    let plain := fun (x : Request) => waiting (withWindow { active with map := ⟨eightOf AttrRange.reset, false⟩ } .p3 1
      ⟨.valid 30 line30, 0⟩) (.engine .p3) x
    passes (routing (readAt 0x200009E0 16) 8) (readAt 0x200009E0 16) true 2 = true ∧
    passes (plain ordered) ordered false 1 = true ∧ passes (plain lock) lock false 1 = true ∧
    passes (routing one 7) one true 1 = true ∧ (routing one 7).lowestFree = some 7 ∧
    passes (routing r 6) r true 2 = true ∧ (routing r 6).lowestFree = some 6 ∧
    ({ routing r 6 with buffer := (filled 6).set 6 (some ⟨.p0, 0, 0, ⟨0, 1, []⟩, none, false, false⟩) } :
      State).lowestFree = some 7 ∧
    passes (routing one 8) one true 1 = true ∧ (routing one 8).freeEntries < 1 ∧
    passes (routing r 7) r true 2 = true ∧ (routing r 7).freeEntries < 2 ∧
    ([(Sequence.free true, true), (.opening ⟨0x40, 0x40, none⟩, false), (.holding ⟨0x40, 0x40, none⟩, false),
      (.closing ⟨0x4A000000, 0x40, none⟩, true)].all fun (x : Sequence × Bool) =>
        let s := { routing one 7 with seqs := active.seqs.set (.engine .p3) x.1 }
        s.ready && decide ((s.seqOf (.engine .p3)).touchedBy [⟨0x4A000000, 1, []⟩] =
          decide (x.1 = .closing ⟨0x4A000000, 0x40, none⟩)) &&
        decide (s.verdict (.engine .p3) one = (routing one 7).verdict (.engine .p3) one)) = true := by decide +kernel

theorem witness_FaultRefusalIsReported :
    admissible (asking active) (.engine .p3) through1 = true ∧
    (asking active).verdict (.engine .p3) through1.req = .faulted .noWindow (some 1) none none ∧
    admissible (waiting active .p0 (readAt 0x50000FFC 1)) .p0 ⟨readAt 0x50000FFC 1, .waiting⟩ = true ∧
    (waiting active .p0 (readAt 0x50000FFC 1)).verdict .p0 (readAt 0x50000FFC 1) =
      .faulted .hole none none (some 0x50000FFC) := by decide +kernel

/-- P0 alone presents an ADMITTED entry of a kind, with its sequence in a phase. -/
def presenting (kind : Access) (q : Sequence) (opens : Bool) : State :=
  { holding active .p0 ⟨kind, 0x10, 1, []⟩ (.admitted ⟨0, ⟨0x40, 1, []⟩, none, none, opens⟩) with
    seqs := active.seqs.set .p0 q }

theorem witness_SequencesAreChecked :
    ([(.free true, .unlock, 0x40), (.free false, .unlock, 0x40), (.opening ⟨0x40, 0x40, none⟩, .lockRead, 0x44),
      (.opening ⟨0x40, 0x40, none⟩, .unlock, 0x44), (.opening ⟨0x40, 0x40, none⟩, .read, 0x40),
      (.opening ⟨0x40, 0x40, none⟩, .unlock, 0x40), (.holding ⟨0x40, 0x40, none⟩, .lockRead, 0x40),
      (.holding ⟨0x40, 0x40, none⟩, .unlock, 0x3C), (.holding ⟨0x40, 0x40, none⟩, .read, 0x40),
      (.holding ⟨0x40, 0x40, none⟩, .unlock, 0x40), (.closing ⟨0x40, 0x40, none⟩, .lockRead, 0x40),
      (.closing ⟨0x40, 0x40, none⟩, .unlock, 0x44)].all fun (x : Sequence × Access × Nat) =>
        let r : Request := ⟨x.2.1, BitVec.ofNat 30 (x.2.2 / 4), 1, []⟩
        let s := waiting { active with seqs := active.seqs.set .p0 x.1 } .p0 r
        admissible s .p0 ⟨r, .waiting⟩ && decide (s.seqOf .p0 = x.1) &&
          decide (s.verdict .p0 r = .passed ⟨BitVec.ofNat 32 x.2.2, 1, []⟩ none none false) &&
          decide (x.1.touchedBy [⟨BitVec.ofNat 32 x.2.2, 1, []⟩] = (x.1.info.isSome && decide (x.2.2 = 0x40)))) = true ∧
    (presenting .lockRead (.opening ⟨0x40, 0x40, none⟩) true).queueOf .p0 =
      [] ++ ⟨⟨.lockRead, 0x10, 1, []⟩, .admitted ⟨0, ⟨0x40, 1, []⟩, none, none, true⟩⟩ :: [] := by decide +kernel

theorem witness_ReportsActOnThePort :
    (record .noWindow .read).port = .engine .p2 ∧ (active.eng .p2).afterReport.state = .opened ∧
    ({ openUnit with storm := 4 } : EngineUnit).afterReport.state = .quiet := by decide +kernel

theorem witness_RecordsAreStagedAndWritten :
    let n : Staged := ⟨{ record .noWindow .read with repeats := 255 }, false⟩
    let r := record .noWindow .read
    (full88 [n] 7).staged.getLast? = some n ∧ n.writing = false ∧ n.record.kind = r.kind ∧ n.record.port = r.port ∧
    n.record.window = r.window ∧ n.record.access = r.access ∧ (record .noWindow .write).access ≠ r.access ∧
    (full88 (List.replicate 3 n) 7).staged.length < 4 ∧ 4 ≤ (full88 (List.replicate 4 n) 7).staged.length ∧
    (full88 [n] 6).staged = n :: [] ∧ (full88 [n] 6).ring = some ⟨0x00300000, 16⟩ ∧
    (full88 [n] 6).writingHead = false ∧ (6 + 16 - 8) % 16 ≠ 16 - 1 ∧ (7 + 16 - 8) % 16 = 16 - 1 ∧
    (full88 [{ n with writing := true }] 6).writingHead = true := by decide +kernel

/-- A page of 5.6 in range 0 alone, one in ranges 0 and 1, one in no range. -/
theorem witness_AttributeIsTheMostRestrictive :
    let hits := fun (a : Word) => (map56.ranges.toList.filter fun r => r.hits (pageOf a)).map AttrRange.attr
    hits 0x41FFEFFC = [.ordered] ∧ hits 0x42000000 = [.ordered, .hole] ∧ hits 0x44000000 = [] ∧
    (map56.ranges.toList.any fun r => r.attr = .fourth) = false := by decide +kernel

/-- At the edges of checks 3, 4 and 5. -/
theorem witness_DescriptorChecksInOrder :
    ([([0x300000AE, 15, 0, 0], Engine.p1), ([0x300000AF, 15, 0, 0], .p2), ([0xFFFFFFAF, 1, 0, 0], .p1),
      ([0xFFFFFFAD, 0, 0, 0], .p1), ([0x300000AF, 3, 0x00020002, 0], .p1), ([0x300000AF, 3, 0x00020001, 1], .p1),
      ([0x300000AF, 3, 0x00020001, 0], .p1)].map fun x => (descriptorOfWords x.1).detail x.2) =
      [1, 2, 3, 0, 4, 5, 0] := by decide +kernel

/-- The configuration of 5.6 passes; each check alone fails one of twelve changes of it. -/
theorem witness_StartChecksInOrder :
    (config16 ++ config12).length = 28 ∧ (configurationOf (config16 ++ config12)).detail starting.anc = 0 ∧
    ([(1, 7), (0, 0x00102010), (3, 0), (3, 257), (2, 0x00101010), (2, 0x00100000), (0, 0xFFFFFD00), (12, 0x40000007),
      (14, 0x00100005), (6, 0x14010101), (5, 0), (4, 1)].map fun (x : Nat × Word) =>
        (configurationOf ((config16 ++ config12).set x.1 x.2)).detail starting.anc) =
      [1, 2, 3, 3, 4, 5, 6, 7, 8, 9, 10, 11] := by decide +kernel

theorem witness_WordsShowTheirFields :
    1 ≤ (record .noWindow .read).beats ∧ (record .noWindow .read).beats ≤ 16 ∧ 12 ≤ (63 : BitVec 6).toNat ∧
    (8 : Lanes) ≠ 15 ∧ (config16 ++ config12).length = 28 := by decide

/-! ### Witnesses: the arbiter and memory answers -/

/-- `active` with eight, or seven, requests issued. -/
def issuedMany (n : Nat) : State := active.setIssued (List.replicate n ⟨false, 0, 1, [], .ctl .portRead, true⟩)

theorem witness_GrantServesTheControllerFirst :
    let s := { issuedMany 7 with ctl := [active.statusRequest] }
    s.ready = true ∧ s.issued.length < 8 ∧ s.ctl = active.statusRequest :: [] ∧ (issuedMany 8).ready = true ∧
    8 ≤ (issuedMany 8).issued.length ∧ active.ctl = [] ∧ active.nextPort = none := by decide +kernel

/-- An ADMITTED read of P0, and the lock of 7.9 held by P1. -/
def blockedByLock : State := holding (locked79 1001) .p0 (readAt 0 1) (.admitted ⟨0, ⟨0, 1, []⟩, none, none, false⟩)

theorem witness_GrantFollowsTheRoundRobin :
    let x : QEntry := ⟨readAt 0 1, .admitted ⟨0, ⟨0, 1, []⟩, none, none, false⟩⟩
    let v : Posted := ⟨.p0, 0, 0, ⟨0, 1, [⟨0, 15⟩]⟩, none, false, false⟩
    ({ blockedByLock with lock := none } : State).nextPort = some (.p0, .entry x) ∧ blockedByLock.nextPort = none ∧
    blockedByLock.candidate .p0 = some (.entry x) ∧ blockedByLock.candidate (.engine .p1) = none ∧
    blockedByLock.lock = some ⟨.engine .p1, 0x09000080, 1000, 20⟩ ∧
    ({ holding active .p0 (readAt 0 1) (.admitted ⟨1, ⟨0, 1, []⟩, none, none, false⟩) with
      buffer := active.buffer.set 7 (some v) } : State).candidate .p0 = some (.buffered 7 v) := by decide +kernel

/-- The entry of `presenting` is what the arbiter finds, in a state ready for a grant. -/
def presents (kind : Access) (q : Sequence) (opens : Bool) : Bool :=
  let s := presenting kind q opens
  s.ready && decide (s.issued.length < 8) && s.ctl.isEmpty && decide (s.nextPort = some (.p0,
    .entry ⟨⟨kind, 0x10, 1, []⟩, .admitted ⟨0, ⟨0x40, 1, []⟩, none, none, opens⟩⟩))

theorem witness_GrantActsByKind :
    let i : SeqInfo := ⟨0x40, 0x40, none⟩
    let second : QEntry := ⟨readAt 0x200009FC 2,
      .issued ⟨4, ⟨0x4A003BFC, 1, []⟩, some ⟨0x4A000400, 1, []⟩, some ⟨1, 77⟩, false⟩ false none⟩
    let s := active.setQueue (.engine .p3) [second]
    let v : Posted := ⟨.engine .p3, 0, 0, ⟨0, 1, [⟨0, 15⟩]⟩, none, false, false⟩
    let b := { active with buffer := active.buffer.set 7 (some v) }
    presents .read (.free false) false = true ∧ presents .write (.free false) false = true ∧
    presents .lockRead (.free false) false = true ∧ presents .lockRead (.opening i) true = true ∧
    presents .lockRead (.closing i) true = true ∧ presents .unlockWrite (.closing i) false = true ∧
    presents .unlock (.closing i) false = true ∧ s.ready = true ∧ s.nextPort = some (.engine .p3, .entry second) ∧
    b.ready = true ∧ b.nextPort = some (.engine .p3, .buffered 7 v) := by decide +kernel

/-- A request of a port ISSUED in one piece, its answer awaited. -/
def awaiting (p : Port) (r : Request) : State :=
  issuing (holding active p r (.issued ⟨3, ⟨0x40, r.beats, r.data⟩, none, none, false⟩ false none)) r.kind.isWrite r.beats
    (.piece p 3)

/-- STOPPING, with one engine read left to be answered. -/
def finishing : State := { awaiting (.engine .p1) (readAt 0x40 1) with opState := .stopping, command := some .stop }

theorem witness_OnePieceAnswerDecidesTheEntry :
    (awaiting .p0 (readAt 0x40 16)).ready = true ∧ (awaiting (.engine .p1) (writeAt 0x40 1 0)).ready = true ∧
    (awaiting .p0 (readAt 0x40 16)).issued = [⟨false, 0x00100000, 16, [], .piece .p0 3, false⟩] ∧
    ((awaiting .p0 (readAt 0x40 16)).queueOf .p0).find? (QEntry.isIssuedAt 3) =
      some ⟨readAt 0x40 16, .issued ⟨3, ⟨0x40, 16, []⟩, none, none, false⟩ false none⟩ ∧
    (List.replicate 16 (0 : Word)).length = (⟨false, 0x00100000, 16, [], .piece .p0 3, false⟩ : Issued).dataLength ∧
    finishing.ready = true ∧ ({ finishing with
      issued := [], ports := active.ports } : State).stopDue = true := by decide +kernel

/-- A read of P3 in two pieces, with a first answer. -/
def awaitingSecond (f : Option Answer) : State := issuing (holding active (.engine .p3) (readAt 0x200009FC 2)
  (.issued ⟨4, ⟨0x4A003BFC, 1, []⟩, some ⟨0x4A000400, 1, []⟩, some ⟨1, 77⟩, false⟩ true f)) false 1
  (.piece (.engine .p3) 4)

theorem witness_TwoPieceAnswersAreCombined :
    ([none, some (.ok [2]), some .error].all fun f => (awaitingSecond f).ready &&
      decide (((awaitingSecond f).queueOf (.engine .p3)).find? (QEntry.isIssuedAt 4) = some ⟨readAt 0x200009FC 2,
        .issued ⟨4, ⟨0x4A003BFC, 1, []⟩, some ⟨0x4A000400, 1, []⟩, some ⟨1, 77⟩, false⟩ true f⟩) &&
      ({ awaitingSecond f with opState := .stopping, command := some .stop } : State).ready) = true ∧
    (awaitingSecond none).issued = [⟨false, 0x00100000, 1, [], .piece (.engine .p3) 4, false⟩] ∧
    answerFits (.ok [3]) ⟨false, 0x00100000, 1, [], .piece (.engine .p3) 4, false⟩ = true := by decide +kernel

/-- An answered write of CONSUMER; a burst of the block's first seven words, none in the table range; the words around them; the first and
the last word of a descriptor. -/
theorem witness_AnsweredSupervisorWritesAreHandedOver :
    let s := awaiting .p0 (writeAt 0x00100010 1 10)
    s.ready = true ∧ s.issued = [⟨true, 0x00100000, 1, [], .piece .p0 3, false⟩] ∧
    (writeAt 0x00100010 1 10).kind.isWrite = true ∧
    active.ready = true ∧ State.reset.table = none ∧ active.table = some ⟨0x00101000, 32⟩ ∧
    active.touched (anchorOf active.anc) 7 = [] ∧ active.touched 0x00100FFC 2 = [0] ∧
    ([(0x00100004, 3), (0x0010001C, 16)].all fun (x : Word × Nat) => [0x00, 0x10, 0x14, 0x18].all fun o =>
      (addressed x.1 (List.replicate x.2 ⟨0, 15⟩)).all fun y =>
        decide (y.1 ≠ addBytes (anchorOf active.anc) o)) = true ∧
    0x00101000 + 16 * 32 ≤ 2 ^ 32 ∧ touchedSelectors ⟨0x00101000, 32⟩ 0x001011FC 2 = [31] ∧
    touchedSelectors ⟨0x00101000, 32⟩ 0x00100FFC 2 = [0] := by decide +kernel

theorem witness_MarksReachEveryHolder :
    (active310.window .p3 1).state = .valid 77 ring77 ∧ (heldOnLoad.window .p3 1).state = .fetching .load 77 false ∧
    ((withWindow active .p3 1 ⟨.stale 77 ring77, 5⟩).window .p3 1).state = .stale 77 ring77 ∧
    (active310.window .p3 0).state = .empty ∧ (active310.window .p3 1).state.selector? = some 77 := by decide +kernel

/-- One posted entry of a port, in the last place, issued and its answer awaited. -/
def awaitingPosted (p : Port) (k : Option Command) : State := issuing { active with
  buffer := active.buffer.set 7 (some ⟨p, 0, 0x20000A00, ⟨0x4A000400, 8, []⟩, some ⟨1, 77⟩, true, true⟩)
  command := k } true 8 (.posted 7)

theorem witness_PostedAnswersFreeTheEntry :
    let s := awaitingPosted (.engine .p3) none
    let d := awaitingPosted .p0 (some .drain)
    s.ready = true ∧ d.ready = true ∧ (awaitingPosted .p0 none).ready = true ∧
    s.issued = [⟨true, 0x00100000, 8, [], .posted 7, false⟩] ∧ (s.buffer.get 7).isSome = true ∧
    s.command ≠ some .drain ∧ d.command = some .drain ∧
    ({ d with issued := [], buffer := d.buffer.set 7 none } : State).watching = false ∧ d.holdsStand = true ∧
    d.commandAgrees = true ∧ ({ s with opState := .stopping, command := some .stop } : State).ready = true ∧
    ({ s with opState := .stopping, buffer := s.buffer.set 7 none } : State).stopDue = true := by decide +kernel

/-- The state of `heldOnLoad` with the refetch flag set, or with its fetch cancelled. -/
def flagged : State := withWindow heldOnLoad .p3 1 ⟨.fetching .load 77 true, 0⟩

theorem witness_FetchAnswersAreDiscarded :
    let cancelled := { active with
      fetches := [⟨.p3, 1, 77, .load, false⟩], issued := [⟨false, 0, 4, [], .ctl .fetch, false⟩] }
    cancelled.ready = true ∧ flagged.ready = true ∧ flagged.issued = [⟨false, 0x00100000, 4, [], .ctl .fetch, false⟩] ∧
    flagged.fetches = [⟨.p3, 1, 77, .load, true⟩] ∧ (flagged.window .p3 1).state = .fetching .load 77 true ∧
    flagged.table = some ⟨0x00101000, 32⟩ ∧ active.inReset = false ∧ active.issued = [] ∧ flagged.inReset = false ∧
    [0].length ≠ 4 ∧ words27.length = 4 ∧
    answerFits (.ok words27) ⟨false, 0x00100000, 4, [], .ctl .fetch, false⟩ = true := by decide +kernel

theorem witness_LoadsComplete :
    heldOnLoad.ready = true ∧ heldOnLoad.holdsStand = true ∧ heldOnLoad.commandAgrees = true ∧
    heldOnLoad.issued = [⟨false, 0x00100000, 4, [], .ctl .fetch, false⟩] ∧
    (⟨false, 0x00100000, 4, [], .ctl .fetch, false⟩ : Issued).dataLength = 4 ∧
    heldOnLoad.fetches = [⟨.p3, 1, 77, .load, true⟩] ∧
    (heldOnLoad.window .p3 1).state = .fetching .load 77 false ∧ (descriptorOfWords words27).detail .p3 = 0 ∧
    (descriptorOfWords words27).detail .p2 ≠ 0 := by decide +kernel

/-- A refetch of window P3/1 in flight, with the read of `through1` held on it, or not held. -/
def refetching (held : Bool) : State := issuing { asking (withWindow active .p3 1 ⟨.fetching .refetch 77 false, 12⟩) with
  fetches := [⟨.p3, 1, 77, .refetch, true⟩] } false 4 (.ctl .fetch)
    |>.setHold (.engine .p3) (if held then some (.window 1) else none)

/-- The kept rotation is M itself, so the initial rotation is taken. -/
theorem witness_RefetchesComplete :
    ([true, false].all fun b => (refetching b).ready &&
      decide ((refetching b).issued = [⟨false, 0x00100000, 4, [], .ctl .fetch, false⟩]) &&
      decide ((refetching b).fetches = [⟨.p3, 1, 77, .refetch, true⟩]) &&
      decide (((refetching b).window .p3 1).state = .fetching .refetch 77 false) &&
      decide (oldestWaiting ((refetching b).queueOf (.engine .p3)) = some through1)) = true ∧
    (refetching true).holdOf (.engine .p3) = some (.window 1) ∧ (refetching false).holdOf (.engine .p3) = none ∧
    (descriptorOfWords words27).detail .p3 = 0 ∧ (descriptorOfWords words27).middle = 12 ∧
    (descriptorOfWords (words27.set 0 0)).detail .p3 ≠ 0 := by decide +kernel

/-- RELOAD_MAP in progress, its first read answered or not. A posted write of P3 is held for buffer space since before
the command was taken. -/
def reloadingWith (x : Option Answer) : State :=
  (issuing { routing (writeAt 0x200009E0 16 7) 8 with command := some (.reloadMap x) } false 16 (.ctl .reloadRead)).setHold
    (.engine .p3) (some .bufferSpace)

/-- The refetch in flight, with the proof that nothing is due in it. -/
def readyRefetching : Subtype fun s : State => s.ready = true := ⟨refetching true, by decide +kernel⟩

theorem witness_StartWaitsAndFails :
    let first := { starting with command := some (.start .halted none) }
    first.ready = true ∧ starting.ready = true ∧ starting.commandAgrees = true ∧
    starting.issued = [⟨false, 0x00100000, 12, [], .ctl .startRead, false⟩] ∧
    answerFits (.ok config12) ⟨false, 0x00100000, 12, [], .ctl .startRead, false⟩ = true ∧
    ({ starting with issued := [⟨false, 0, 12, [], .ctl .startRead, true⟩] } : State).ready = true ∧
    (configurationOf (config16 ++ config12.set 6 0x00002005)).detail starting.anc ≠ 0 := by decide +kernel

theorem witness_StartSucceeds :
    starting.ready = true ∧ starting.commandAgrees = true ∧ starting.command = some (.start .halted (some (.ok config16))) ∧
    config12.length = (⟨false, 0x00100000, 12, [], .ctl .startRead, false⟩ : Issued).dataLength ∧
    (configurationOf (config16 ++ config12)).detail starting.anc = 0 := by decide +kernel

theorem witness_ReloadMapEnds :
    (reloadingWith none).ready = true ∧ (reloadingWith (some (.ok [1]))).ready = true ∧
    (reloadingWith (some (.ok [1]))).holdOf (.engine .p3) = some .bufferSpace ∧
    (reloadingWith (some (.ok [1]))).holdsStand = true ∧ (reloadingWith (some (.ok [1]))).commandAgrees = true ∧
    (reloadingWith (some .error)).ready = true ∧
    (reloadingWith none).issued = [⟨false, 0x00100000, 16, [], .ctl .reloadRead, false⟩] ∧
    answerFits (.ok (config16.drop 12 ++ config12)) ⟨false, 0x00100000, 16, [], .ctl .reloadRead, false⟩ = true ∧
    fourthInvalid (rangesOf (config16.drop 12 ++ config12)) = false ∧
    fourthInvalid (rangesOf ((config16.drop 12 ++ config12).set 0 7)) = true ∧
    holeInvalid (rangesOf (config16.drop 12 ++ config12)) active.zone = false ∧
    holeInvalid (rangesOf (config16.drop 12 ++ config12.set 6 0x00002005)) active.zone = true := by decide +kernel

/-- CONFIGURE_PORT in progress, its read awaited. -/
def configuringPort (p : Port) : State := issuing { active with command := some (.configurePort p) } false 1
  (.ctl .portRead)

theorem witness_ConfigurePortEnds :
    ([.p0, .engine .p1].all fun p => (configuringPort p).ready && (configuringPort p).holdsStand &&
      (configuringPort p).commandAgrees && decide ((configuringPort p).command = some (.configurePort p))) = true ∧
    (configuringPort .p0).issued = [⟨false, 0x00100000, 1, [], .ctl .portRead, false⟩] ∧
    ({ active with issued := [⟨false, 0x00100000, 1, [], .ctl .portRead, true⟩] } : State).ready = true ∧
    answerFits (.ok [1]) ⟨false, 0x00100000, 1, [], .ctl .portRead, true⟩ = true ∧
    limitInvalid 0x00000001 = true ∧ limitInvalid 0x01000001 = false ∧ marksInvalid 0x14050501 = true ∧
    marksInvalid 0x14040501 = false ∧ marksInvalid 0x00000001 = false := by decide +kernel

/-- A ring write of 8.8 in flight for the head, with the record behind it PENDING. -/
def writingRing (producer : Nat) : State := issuing { full88 [⟨record .noWindow .read, true⟩,
  ⟨record .noWindow .write, false⟩] producer with enables := ⟨false, false, false, false, false⟩ } true 4
  (.ctl .recordWrite)

theorem witness_ControllerWriteAnswers :
    (writingRing 15).ready = true ∧ (writingRing 6).ready = true ∧ (writingRing 15).opState = .active ∧
    (writingRing 15).ring = some ⟨0x00300000, 16⟩ ∧ (writingRing 15).producer < 16 ∧ (writingRing 15).staged.tail ≠ [] ∧
    (writingRing 15).staged.tail.any Staged.writing = false ∧
    ({ writingRing 6 with opState := .stopping, command := some .stop } : State).ready = true ∧
    ((15 + 1) % 16 + 16 - 8) % 16 ≠ 16 - 1 ∧ ((6 + 1) % 16 + 16 - 8) % 16 = 16 - 1 ∧
    ([CtlKind.recordWrite, .statusUpdate, .resultWrite].all fun k =>
      (issuing active true 4 (.ctl k)).ready && ({ active with
        issued := [⟨true, 0, 4, [], .ctl k, true⟩] } : State).ready) = true := by decide +kernel

theorem witness_HaltEntryEffects :
    (writingRing 6).settled = true ∧ (locked79 1001).settled = true ∧
    (locked79 1001).lock = some ⟨.engine .p1, 0x09000080, 1000, 20⟩ ∧
    ({ presenting .unlock (.closing ⟨0x40, 0x40, none⟩) false with lock := some ⟨.p0, 0x40, 0, 20⟩ } : State).settled =
      true := by decide +kernel

/-! ### Witnesses: expiries and commands -/

/-- The lock of 7.9 with its owner in CLOSING, in an operating state. -/
def closing79 (o : OpState) : State := { locked79 1020 with
  opState := o, seqs := active.seqs.set (.engine .p1) (.closing ⟨0x09000080, 0x40000080, some ⟨2, 30⟩⟩) }

theorem witness_LockTimerExpires :
    (locked79 1019).lockDue = false ∧ (locked79 1019).ready = true ∧ (locked79 1020).ready = true ∧
    (1020 : Micros) = 1000 + (20 : BitVec 8).setWidth 16 ∧
    (closing79 .active).ready = true ∧ (closing79 .halted).ready = true ∧
    ({ locked79 1020 with opState := .halted } : State).ready = true ∧
    (closing79 .active).seqOf (.engine .p1) = .closing ⟨0x09000080, 0x40000080, some ⟨2, 30⟩⟩ ∧
    (locked79 1020).seqOf (.engine .p1) = .holding ⟨0x09000080, 0x40000080, some ⟨2, 30⟩⟩ ∧
    OpState.records .active = true ∧ OpState.records .halted = false := by decide +kernel

theorem witness_IntervalExpires :
    active.ready = true ∧ active.nextExpiry ≠ some active.now ∧ ({ active with now := 2000 } : State).ready = true ∧
    ({ active with now := 2000 } : State).nextExpiry = some 2000 := by decide +kernel

/-- `active` with a command in progress. -/
def busy : State := { active with command := some .drain }

theorem witness_CommandsAreRefusedInOrder :
    busy.ready = true ∧ busy.command ≠ none ∧ writesCommand .start = true ∧ writesCommand (.malformed 3 0) = true ∧
    Instr.wf (.malformed 14 0) = true ∧ codeField 0xFFFFFFC0 = 0 ∧ active.command = none ∧ active.holdsStand = true ∧
    12 ≤ (codeField 12).toNat ∧ 12 ≤ (codeField 63).toNat ∧ activeCode .drain = some 11 ∧ State.reset.opState ≠ .active ∧
    State.reset.ready = true ∧ State.reset.command = none ∧ State.reset.holdsStand = true ∧ active.opState ≠ .boot ∧
    active.opState ≠ .halted := by decide +kernel

theorem witness_StartIsTaken :
    State.reset.ready = true ∧ State.reset.command = none ∧ State.reset.opState = .boot ∧
    ({ active with opState := .halted } : State).ready = true := by decide +kernel

/-- STOP taken with an ADMITTED engine entry, which keeps it from completing. -/
def stoppingLater : State := holding active (.engine .p3) (readAt 0x20000000 1)
  (.admitted ⟨0, ⟨0x4A000000, 1, []⟩, none, some ⟨1, 77⟩, false⟩)

theorem witness_StopIsTakenAndCompletes :
    (locked79 1001).ready = true ∧ (locked79 1001).lock ≠ none ∧ active.ready = true ∧ active.command = none ∧
    active.opState = .active ∧ active.holdsStand = true ∧ active.lock = none ∧ active.enginesIdle = true ∧
    active.bufferEmpty = true ∧ active.staged = [] ∧ stoppingLater.ready = true ∧ stoppingLater.enginesIdle = false ∧
    (full88 [⟨record .noWindow .read, false⟩] 7).ready = true ∧
    ({ full88 [⟨record .noWindow .read, false⟩] 7 with opState := .stopping } : State).stopDue = true ∧
    ([Port.p0, .engine .p1, .engine .p2, .engine .p3].all fun p =>
      ((full88 [⟨record .noWindow .read, false⟩] 7).unit p).settled) = true := by decide +kernel

theorem witness_WindowLoadsAndClears :
    active.ready = true ∧ active.command = none ∧ active.opState = .active ∧ active.holdsStand = true ∧
    active.table = some ⟨0x00101000, 32⟩ ∧ 32 ≤ (32 : Arg).toNat ∧ (31 : Selector).toNat < 32 ∧
    ({ active with table := none } : State).ready = true ∧ heldOnLoad.ready = true := by decide +kernel

theorem witness_RotateIsTaken :
    active310.ready = true ∧ active310.command = none ∧ active310.holdsStand = true ∧
    (active310.window .p3 0).state = .empty ∧ (heldOnLoad.window .p3 1).isFetching = true ∧
    ((withWindow active .p3 1 ⟨.valid 30 line30, 0⟩).window .p3 1).state = .valid 30 line30 ∧ line30.kind = .linear ∧
    (active310.window .p3 1).state = .valid 77 ring77 ∧ ring77.kind = .rotating 4 4 56 50 ∧ 56 ≤ (56 : Arg).toNat ∧
    (55 : Arg).toNat < 56 := by decide +kernel

theorem witness_InvalidatesAreTaken :
    active310.ready = true ∧ active310.table = some ⟨0x00101000, 32⟩ ∧ 32 ≤ (32 : Arg).toNat ∧ (31 : Arg).toNat < 32 ∧
    ({ active with table := none } : State).ready = true := by decide +kernel

theorem witness_ReleasePortIsTaken :
    State.reset.ready = true ∧ State.reset.opState ≠ .active ∧
    ([PortState.disabled, .opened, .blocked, .quiet].all fun st => (activeWith st).ready && (activeWith st).holdsStand &&
      decide (((activeWith st).eng .p3).state = st)) = true := by decide +kernel

theorem witness_LongCommandsAreTaken :
    active.ready = true ∧ active.bufferEmpty = true ∧ (awaitingPosted .p0 none).ready = true ∧
    (awaitingPosted .p0 none).command = none ∧ (awaitingPosted .p0 none).holdsStand = true ∧
    (awaitingPosted .p0 none).bufferEmpty = false := by decide +kernel

/-- At the edges: the producer itself, one past it, and the ring's size. -/
theorem witness_ConsumerIsTaken :
    let s := { active with producer := 6, consumer := 5 }
    State.reset.ready = true ∧ s.ready = true ∧ s.indicesInRing = true ∧ s.ring = some ⟨0x00102000, 64⟩ ∧
    ((64 : Word).extractLsb' 0 10).toNat = 64 ∧ (6 + 64 - 5) % 64 < (7 + 64 - 5) % 64 ∧
    (6 + 64 - 5) % 64 ≤ (6 + 64 - 5) % 64 ∧ (3 : Lanes) ≠ 0 ∧ (3 : Lanes) ≠ 15 := by decide +kernel

theorem witness_EnableAndAcknowledgeAreTaken :
    active.ready = true ∧ State.reset.ready = true ∧ (14 : Lanes) ≠ 0 ∧ (14 : Lanes) ≠ 15 := by decide +kernel

end Sys2Proof.Tests
end

/-! The descriptor checks of R28: what each of the five answers, for any descriptor, and what the four words of a
descriptor give the checks to read. -/

namespace Sys2Proof.Machine

namespace Descriptor

variable (d : Descriptor) {e : Engine}

/-! ### The checks, one lemma for each outcome -/

theorem detail_of_invalid (hv : d.valid = false) : d.detail e = 1 := if_pos hv

theorem detail_of_port_unlisted (hv : d.valid = true) (hp : d.ports.get e = false) : d.detail e = 2 := by
  simp only [detail, hv, hp, Bool.true_eq_false, if_true, if_false]

theorem detail_of_extent_exceeded (hv : d.valid = true) (hp : d.ports.get e = true)
    (hx : 2 ^ 32 < d.base.toNat + d.size * 256) : d.detail e = 3 := by
  simp only [detail, hv, hp, Bool.true_eq_false, if_false, gt_iff_lt, if_pos hx]

section ExtentPassed

variable {d} (hv : d.valid = true) (hp : d.ports.get e = true) (hx : d.base.toNat + d.size * 256 ≤ 2 ^ 32)
include hv hp hx

/-- Checks 1 to 3 passed, what is left are the two checks on a rotating region. -/
theorem detail_of_extent_passed : d.detail e =
    if d.rotating && decide (d.size ≤ d.head + d.tail) then 4
    else if d.rotating && decide (d.middle ≤ d.initial.toNat) then 5
    else 0 := by
  simp only [detail, hv, hp, Bool.true_eq_false, if_false, gt_iff_lt, if_neg (Nat.not_lt.mpr hx)]

theorem detail_of_linear (hk : d.rotating = false) : d.detail e = 0 := by
  simp [detail_of_extent_passed hv hp hx, hk]

theorem detail_of_middle_empty (hk : d.rotating = true) (hm : d.size ≤ d.head + d.tail) : d.detail e = 4 := by
  simp [detail_of_extent_passed hv hp hx, hk, hm]

theorem detail_of_rotation_outside (hk : d.rotating = true) (hm : d.head + d.tail < d.size)
    (hi : d.middle ≤ d.initial.toNat) : d.detail e = 5 := by
  simp [detail_of_extent_passed hv hp hx, hk, Nat.not_le.mpr hm, hi]

theorem detail_of_rotation_inside (hk : d.rotating = true) (hm : d.head + d.tail < d.size)
    (hi : d.initial.toNat < d.middle) : d.detail e = 0 := by
  simp [detail_of_extent_passed hv hp hx, hk, Nat.not_le.mpr hm, Nat.not_le.mpr hi]

end ExtentPassed

theorem middle_eq_size_sub_ends : d.middle = d.size - (d.head + d.tail) :=
  Nat.sub_sub d.size d.head d.tail

end Descriptor

/-! ### The fields the checks read, from the four words -/

/-- BASE is given in granules of 256 bytes (R23). -/
theorem descriptorOf_base_toNat (w0 w1 w2 w3 : Word) :
    (descriptorOf w0 w1 w2 w3).base.toNat = (w0.extractLsb' 8 24).toNat * 256 := calc
  (w0.extractLsb' 8 24 ++ 0#8).toNat = (w0.extractLsb' 8 24).toNat <<< 8 ||| 0 := BitVec.toNat_append _ _
  _ = (w0.extractLsb' 8 24).toNat * 256 := by rw [Nat.or_zero, Nat.shiftLeft_eq]

/-- PORTS is one bit for each engine port, from bit 5 on. -/
theorem descriptorOf_ports (w0 w1 w2 w3 : Word) :
    (descriptorOf w0 w1 w2 w3).ports = ⟨w0.getLsbD 5, w0.getLsbD 6, w0.getLsbD 7⟩ := rfl

/-- Settles O29: a case for each outcome, in the order of the checks. -/
theorem descriptorChecksInOrder : Obligations.DescriptorChecksInOrder := by
  intro w0 w1 w2 w3 e detail listed base size ends initial
  have ports_eq : (descriptorOf w0 w1 w2 w3).ports.get e = listed := by
    rw [descriptorOf_ports]
    cases e <;> rfl
  have extent_eq : (descriptorOf w0 w1 w2 w3).base.toNat + (descriptorOf w0 w1 w2 w3).size * 256 =
      base + size * 256 := congrArg (· + size * 256) (descriptorOf_base_toNat w0 w1 w2 w3)
  have middle_eq : (descriptorOf w0 w1 w2 w3).middle = size - ends := Descriptor.middle_eq_size_sub_ends _
  rw [← ports_eq, ← extent_eq, ← middle_eq]
  refine ⟨?invalid, ?unlisted, ?tooLong, fun valid port extent => ⟨?linear, ?noMiddle, ?outside, ?inside⟩⟩
  case invalid => exact (descriptorOf w0 w1 w2 w3).detail_of_invalid
  case unlisted => exact (descriptorOf w0 w1 w2 w3).detail_of_port_unlisted
  case tooLong => exact (descriptorOf w0 w1 w2 w3).detail_of_extent_exceeded
  case linear => exact Descriptor.detail_of_linear valid port extent
  case noMiddle => exact Descriptor.detail_of_middle_empty valid port extent
  case outside => exact Descriptor.detail_of_rotation_outside valid port extent
  case inside => exact Descriptor.detail_of_rotation_inside valid port extent

end Sys2Proof.Machine

/-! The end of a command that is taken with none in progress, and ROTATE (R44, R158, R169). The result of such a
command is one queued write; what is left to show of its event is which changes of the status word it notes. -/

namespace Sys2Proof.Machine

section
variable (s : State)

/-! ### The status word and the causes -/

/-- The place of the DONE bit in the word, whatever stands around it (12.2). -/
theorem getLsbD_six_of_fields {n : Nat} (high : BitVec n) (done : Bool) (overflow queue busy : BitVec 1)
    (op : BitVec 3) : (high ++ BitVec.ofBool done ++ overflow ++ queue ++ busy ++ op).getLsbD 6 = done := by
  simp only [BitVec.getLsbD_append]
  simp

theorem State.statusWord_done_bit : s.statusWord.getLsbD 6 = s.causes.done := getLsbD_six_of_fields _ _ _ _ _ _

/-- DONE is a field of the status word, so setting it is a change exactly where it was clear (R169, R174). -/
theorem State.statusWord_setCauses_done_iff :
    (s.setCauses { s.causes with done := true }).statusWord = s.statusWord ↔ s.causes.done = true := by
  constructor
  · intro same
    have bit := congrArg (fun x : Word => x.getLsbD 6) same
    simpa only [State.statusWord_done_bit, State.setCauses_causes] using bit.symm
  · intro done
    rw [← done]
    rfl

theorem State.setDone_eq : s.setDone = { s with
    causes := { s.causes with done := true }
    statusChanged := s.statusChanged || !s.causes.done } := by
  have noted : decide ((s.setCauses { s.causes with done := true }).statusWord = s.statusWord ∧
      (s.setCauses { s.causes with done := true }).producer = s.producer) = s.causes.done := by
    simp [State.statusWord_setCauses_done_iff]
  rw [State.setDone, State.changeCauses, State.noteFrom_eq, noted]
  rfl

theorem State.irqLevel_setCauses_done :
    (s.setCauses { s.causes with done := true }).irqLevel = (s.irqLevel || s.enables.done) := by
  have queue : (s.setCauses { s.causes with done := true }).queueCause = s.queueCause := rfl
  simp only [State.irqLevel, queue, State.setCauses_causes, State.setCauses_enables]
  cases s.causes.done <;> cases s.enables.done <;> simp

theorem State.changeCommand_self : s.changeCommand s.command = s := by
  simp [State.changeCommand, State.noteFrom, State.setCommand]

/-! ### Holds of a command in progress -/

theorem State.endHolds_of_none (f : Hold → Bool) (none_held : ∀ p, (s.holdOf p).any f = false) :
    s.endHolds f = s := by
  have unchanged := s.ports.map_unchanged (fun u => if u.hold.any f then { u with hold := none } else u)
    fun p => if_neg (by simpa [State.holdOf, State.unit] using none_held p)
  rw [State.endHolds_eq, unchanged]

theorem State.not_reloading_of_idle (idle : s.command = none) : s.reloading = false := by
  simp [State.reloading, idle]

theorem State.not_configuring_of_idle (idle : s.command = none) (e : Engine) : s.configuring e = false := by
  simp [State.configuring, idle]

theorem State.supervisorHoldStands_of_idle (idle : s.command = none) {h : Hold} (of_command : h.ofCommand = true) :
    s.supervisorHoldStands h = false := by
  cases h with
  | reloadMap => exact s.not_reloading_of_idle idle
  | configurePort | configureLapsed => rfl
  | loading | window | bufferSpace => cases of_command

theorem State.holdStands_of_idle (idle : s.command = none) (e : Engine) {h : Hold} (of_command : h.ofCommand = true) :
    s.holdStands e h = false := by
  cases h with
  | reloadMap => exact s.not_reloading_of_idle idle
  | configurePort | configureLapsed => exact s.not_configuring_of_idle idle e
  | loading | window | bufferSpace => cases of_command

theorem State.supervisorHoldStands_of_hold (stand : s.holdsStand = true) {h : Hold} (hold : s.holdOf .p0 = some h) :
    s.supervisorHoldStands h = true := by
  simp only [State.holdsStand, Bool.and_eq_true] at stand
  obtain ⟨supervisor, -⟩ := stand
  rwa [show s.ports.p0.hold = some h from hold] at supervisor

theorem State.holdStands_of_hold (stand : s.holdsStand = true) {e : Engine} {h : Hold}
    (hold : s.holdOf (.engine e) = some h) : s.holdStands e h = true := by
  simp only [State.holdsStand, Bool.and_eq_true, List.all_eq_true] at stand
  obtain ⟨-, engines⟩ := stand
  simpa [hold] using engines e (by cases e <;> decide)

/-- With no command in progress no hold of a command stands (R6). -/
theorem State.no_command_hold (stand : s.holdsStand = true) (idle : s.command = none) (p : Port) :
    (s.holdOf p).any Hold.ofCommand = false := by
  rw [Option.any_eq_false]
  intro h hold
  by_contra of_command
  rw [Bool.not_eq_false] at of_command
  cases p with
  | p0 => simpa [s.supervisorHoldStands_of_hold stand hold] using s.supervisorHoldStands_of_idle idle of_command
  | engine e => simpa [s.holdStands_of_hold stand hold] using s.holdStands_of_idle idle e of_command

/-! ### A command that ends in the event that takes it -/

theorem State.not_statusWaiting_after_result (code : BitVec 8) (o : CommandOutcome) (detail : Nat) :
    (s.ctlUnwaiting ++ [s.resultRequest code o detail]).any CtlRequest.isStatus = false := by
  simp [State.ctlUnwaiting, State.resultRequest, CtlRequest.isStatus]

/-- With none waiting, a status update is raised exactly where a change was noted (R169). -/
theorem State.raiseStatus_of_none_waiting (reporting : s.reporting = true) (none_waits : s.statusWaiting = false) :
    s.raiseStatus = { s with
      ctl := s.ctl ++ if s.statusChanged then [s.statusRequest] else []
      statusChanged := false } := by
  have due : (s.statusChanged && s.reporting && !s.statusWaiting) = s.statusChanged := by
    simp [reporting, none_waits]
  simp only [State.raiseStatus, due]
  split
  · rfl
  · rw [List.append_nil]
    rfl

/-- A final result with no command in progress ends no hold and changes one field of the status word, DONE. -/
theorem State.finalResult_of_idle (idle : s.command = none)
    (unheld : ∀ p, (s.holdOf p).any Hold.ofCommand = false) (code : BitVec 8) (o : CommandOutcome) (detail : Nat) :
    s.finalResult code o detail = { s with
      ctl := s.ctlUnwaiting ++ [s.resultRequest code o detail]
      command := none
      causes := { s.causes with done := true }
      statusChanged := s.statusChanged || s.statusWaiting || !s.causes.done } := by
  have raised_idle : (s.raiseResult code o detail).command = none := by rw [State.raiseResult_frame]; exact idle
  have command_kept : (s.raiseResult code o detail).changeCommand none = s.raiseResult code o detail := by
    rw [← raised_idle, State.changeCommand_self]
  rw [State.finalResult, command_kept, State.setDone_eq, State.raiseResult_frame, State.endHolds_of_none, ← idle]
  · rfl
  · exact unheld

/-- The event of a command that is given its final result as it is taken: no other field of the status word has
changed (R158, R169). -/
theorem State.settle_finalResult (settled : s.settled = true) (idle : s.command = none)
    (unheld : ∀ p, (s.holdOf p).any Hold.ofCommand = false) (code : BitVec 8) (o : CommandOutcome) (detail : Nat) :
    ((s.setReporting true).finalResult code o detail).settle = s.afterResult code o detail false := by
  have ports_settled := s.unit_settled settled
  simp only [State.settled, Bool.and_eq_true, Bool.not_eq_true', decide_eq_true_eq] at settled
  obtain ⟨⟨⟨-, stop_not_due⟩, irq⟩, unchanged⟩ := settled
  have result := (s.setReporting true).finalResult_of_idle idle unheld code o detail
  have level : ((s.setReporting true).finalResult code o detail).irqLevel = (s.irqAsserted || s.enables.done) := by
    rw [result, irq]
    exact s.irqLevel_setCauses_done
  rw [State.settle_of_ports_settled _ (by rw [result]; exact ports_settled) (by rw [result]; exact stop_not_due),
    State.followIrq, level, result,
    State.raiseStatus_of_none_waiting _ (by rfl) (by exact s.not_statusWaiting_after_result code o detail)]
  simp only [State.afterResult, State.setIrqAsserted, State.setReporting_statusChanged, unchanged, Bool.false_or,
    List.append_assoc, List.singleton_append]
  rfl

theorem State.commandWritten_of_idle (c : CommandWrite) (idle : s.command = none) (acts : c ≠ .ignored) :
    s.commandWritten c = (s.setReporting true).takeCommand c := by
  simp [State.commandWritten, idle, acts]

end

/-! ### ROTATE -/

/-- M is known of a window that holds a checked descriptor, VALID or STALE, where that is ROTATING (R44). -/
theorem Window.middle?_of_rotating {v : Window} {k : Selector} {d : Checked} {head tail m : Nat} {initial : Arg}
    (held : v.state = .valid k d ∨ v.state = .stale k d) (rotating : d.kind = .rotating head tail m initial) :
    v.middle? = some m := by
  rcases held with state | state <;> simp [Window.middle?, WindowState.checked?, state, rotating]

theorem Window.middle?_of_linear {v : Window} {k : Selector} {d : Checked}
    (held : v.state = .valid k d ∨ v.state = .stale k d) (linear : d.kind = .linear) : v.middle? = none := by
  rcases held with state | state <;> simp [Window.middle?, WindowState.checked?, state, linear]

theorem Window.middle?_of_empty {v : Window} (state : v.state = .empty) : v.middle? = none := by
  simp [Window.middle?, WindowState.checked?, state]

theorem Window.middle?_of_fetching {v : Window} (fetching : v.isFetching = true) : v.middle? = none := by
  cases state : v.state with
  | fetching => simp [Window.middle?, WindowState.checked?, state]
  | empty | valid | stale => simp [Window.isFetching, state] at fetching

section
variable (s : State) {e : Engine} {w : Index8} {r : Arg} {m : Nat}

theorem State.takeRotate_p0 : s.takeRotate .p0 w r = s.finalResult 5 .badArgument 0 := rfl

theorem State.takeRotate_of_not_rotating (middle : (s.window e w).middle? = none) :
    s.takeRotate (.engine e) w r = s.finalResult 5 .notRotating 0 := by
  simp only [State.takeRotate, middle]
  rfl

theorem State.takeRotate_of_outside (middle : (s.window e w).middle? = some m) (outside : m ≤ r.toNat) :
    s.takeRotate (.engine e) w r = s.finalResult 5 .badArgument 0 := by
  simp only [State.takeRotate, middle, if_neg (Nat.not_lt.mpr outside)]
  rfl

theorem State.takeRotate_of_inside (middle : (s.window e w).middle? = some m) (inside : r.toNat < m) :
    s.takeRotate (.engine e) w r =
      (s.setWindow e w ⟨(s.window e w).state, r⟩).finalResult 5 .ok 0 := by
  simp only [State.takeRotate, middle, if_pos inside]
  rfl

end

section
variable {s : State} (ready : s.ready = true) (idle : s.command = none) (active : s.opState = .active)
  (stand : s.holdsStand = true)
include ready idle active stand

/-- The event of a ROTATE taken in ACTIVE, from what taking it gives: its final result on a state `u` that differs
from `s` at most in what the end of an event does not read. -/
theorem exec_rotate_of_taken {p : Port} {w : Index8} {r : Arg} {o : CommandOutcome} (u : State)
    (taken : (s.setReporting true).takeRotate p w r = (u.setReporting true).finalResult 5 o 0)
    (same_settled : u.settled = s.settled) (same_ports : u.ports = s.ports) (same_command : u.command = s.command) :
    exec (.rotate p w r) s = .next (u.afterResult 5 o 0 false) := by
  simp only [State.ready, Bool.and_eq_true, Bool.not_eq_true'] at ready
  obtain ⟨running, settled⟩ := ready
  have written : s.commandWritten (.rotate p w r) = (u.setReporting true).finalResult 5 o 0 := by
    rw [s.commandWritten_of_idle _ idle (by simp), ← taken]
    exact if_pos active
  have unheld (q : Port) : (u.holdOf q).any Hold.ofCommand = false := by
    rw [State.holdOf, State.unit, same_ports]
    exact s.no_command_hold stand idle q
  calc exec (.rotate p w r) s
    _ = s.event fun t => t.commandWritten (.rotate p w r) := rfl
    _ = .next (s.commandWritten (.rotate p w r)).settle := s.event_running _ running
    _ = .next (u.afterResult 5 o 0 false) := by
      rw [written, u.settle_finalResult (same_settled.trans settled) (same_command.trans idle) unheld]

end

/-- Settles O55: a case for each outcome, in the order of the checks of R44. -/
theorem rotateIsTaken : Obligations.RotateIsTaken := by
  intro s e w r k d head tail m initial ready idle active stand v
  refine ⟨?supervisor, fun unrotatable => ?notRotating, fun held rotating => ?checked⟩
  case supervisor =>
    exact exec_rotate_of_taken ready idle active stand s (State.takeRotate_p0 _) rfl rfl rfl
  case notRotating =>
    have middle : v.middle? = none := by
      rcases unrotatable with empty | fetching | ⟨held, linear⟩
      · exact Window.middle?_of_empty empty
      · exact Window.middle?_of_fetching fetching
      · exact Window.middle?_of_linear held linear
    exact exec_rotate_of_taken ready idle active stand s (State.takeRotate_of_not_rotating _ middle) rfl rfl rfl
  case checked =>
    have middle : v.middle? = some m := Window.middle?_of_rotating held rotating
    refine ⟨fun outside => ?_, fun inside => ?_⟩
    · exact exec_rotate_of_taken ready idle active stand s (State.takeRotate_of_outside _ middle outside) rfl rfl rfl
    · exact exec_rotate_of_taken ready idle active stand (s.setWindow e w ⟨v.state, r⟩)
        (State.takeRotate_of_inside _ middle inside) rfl rfl rfl

end Sys2Proof.Machine

/-! The attribute of a byte (R76, R77): which ranges match it, and what the attributes they name make of
`AttributeMap.attrOf`. -/

namespace Sys2Proof

theorem Eight.toList_eq_map_get {α : Type} (b : Eight α) : b.toList = (List.finRange 8).map b.get := rfl

theorem Eight.mem_toList {α : Type} {b : Eight α} {x : α} : x ∈ b.toList ↔ ∃ i, b.get i = x := by
  simp only [b.toList_eq_map_get, List.mem_map, List.mem_finRange, true_and]

end Sys2Proof

namespace Sys2Proof.Machine

theorem AttrRange.hits_iff {r : AttrRange} {page : BitVec 20} :
    r.hits page = true ↔ r.valid = true ∧ page &&& r.mask = r.base &&& r.mask := by
  simp only [AttrRange.hits, Bool.and_eq_true, decide_eq_true_eq]

namespace AttributeMap

variable {m : AttributeMap} {a : Word}

/-- The test `attrOf` makes of the ranges in list order is one on the ranges by number. -/
theorem any_matching_iff_names (t : Attr) :
    (m.ranges.toList.filter fun r => r.hits (pageOf a)).any (fun r => r.attr = t) = true ↔ m.names a t := calc
  _ ↔ ∃ r ∈ m.ranges.toList, r.hits (pageOf a) = true ∧ r.attr = t := by
    simp only [List.any_filter, List.any_eq_true, Bool.and_eq_true, decide_eq_true_eq]
  _ ↔ ∃ i, (m.ranges.get i).hits (pageOf a) = true ∧ (m.ranges.get i).attr = t := by
    simp only [Eight.mem_toList, exists_exists_eq_and]
  _ ↔ m.names a t := exists_congr fun i => by rw [AttrRange.hits_iff, and_right_comm, and_assoc]

open Classical in
/-- R77 as one equation: the ranges count by what they name, and not by their numbers. -/
theorem attrOf_eq : m.attrOf a =
    if m.names a .hole then .hole
    else if m.names a .ordered then .ordered
    else if m.names a .posted then .posted
    else if m.defaultPosted then .posted else .ordered := by
  simp only [attrOf, any_matching_iff_names]

end AttributeMap

/-- Settles O28: a case for each outcome, in the order of restriction. That no matching range carries the fourth
encoding is not needed, since `attrOf` takes no attribute from such a range. -/
theorem attributeIsTheMostRestrictive : Obligations.AttributeIsTheMostRestrictive := by
  intro m a _
  rw [AttributeMap.attrOf_eq]
  refine ⟨?hole, ?ordered, ?posted, ?default⟩
  case hole => exact fun hole => if_pos hole
  case ordered =>
    intro no_hole ordered
    rw [if_neg no_hole, if_pos ordered]
  case posted =>
    intro no_hole no_ordered posted
    rw [if_neg no_hole, if_neg no_ordered, if_pos posted]
  case default =>
    intro no_hole no_ordered no_posted
    rw [if_neg no_hole, if_neg no_ordered, if_neg no_posted]

end Sys2Proof.Machine

/-! RELEASE_PORT (R149): the fields its command word is read by, what a change of the port state does to the status
word, and the end of an event that noted such a change. -/

namespace Sys2Proof.Machine

/-! ### The command word -/

theorem codeField_commandWordOf (code : BitVec 6) (p : Port) (w : Index8) (arg : Arg) :
    codeField (commandWordOf code p w arg) = code := BitVec.extractLsb'_append_eq_right

theorem portField_commandWordOf (code : BitVec 6) (p : Port) (w : Index8) (arg : Arg) :
    portField (commandWordOf code p w arg) = portCode p := calc
  portField (commandWordOf code p w arg)
  _ = (arg ++ BitVec.ofNat 3 w.val ++ portCode p).extractLsb' 0 2 := BitVec.extractLsb'_append_eq_of_le (Nat.le_refl 6)
  _ = portCode p := BitVec.extractLsb'_append_eq_right

theorem portOfCode_portCode (p : Port) : portOfCode (portCode p) = p := by
  cases p with
  | p0 => rfl
  | engine e => cases e <;> rfl

/-- Only the code and the port field of a RELEASE_PORT word are read (R149). -/
theorem commandOf_releasePort (p : Port) (w : Index8) (arg : Arg) :
    commandOf 15 (commandWordOf 8 p w arg) = .releasePort p := by
  rw [commandOf, codeField_commandWordOf, portField_commandWordOf, portOfCode_portCode]
  rfl

/-! ### A change of the port state -/

section
variable (s : State) {e : Engine} {st : PortState}

/-- The places of the port states in the word, whatever stands around them (12.2). -/
theorem extractLsb'_portStates_of_fields {n : Nat} (high : BitVec n) (p3 p2 p1 : BitVec 2) (spare : BitVec 6)
    (halt misuse overrun done overflow queue busy : BitVec 1) (op : BitVec 3) (e : Engine) :
    (high ++ p3 ++ p2 ++ p1 ++ spare ++ halt ++ misuse ++ overrun ++ done ++ overflow ++ queue ++ busy ++
      op).extractLsb' (14 + 2 * (portCode (.engine e)).toNat) 2 = (⟨p1, p2, p3⟩ : PerEngine (BitVec 2)).get e := by
  cases e <;>
    simp [portCode, PerEngine.get, BitVec.extractLsb'_append_eq_of_le, BitVec.extractLsb'_append_eq_of_add_le]

theorem State.statusWord_portState (e : Engine) :
    s.statusWord.extractLsb' (14 + 2 * (portCode (.engine e)).toNat) 2 = portStateCode (s.eng e).state := calc
  _ = (s.engines.map fun u => portStateCode u.state).get e := extractLsb'_portStates_of_fields ..
  _ = portStateCode (s.eng e).state := s.engines.get_map e _

theorem portStateCode_injective : Function.Injective portStateCode := by
  intro a b
  cases a <;> cases b <;> simp [portStateCode]

/-- The port state is a field of the status word, so another state is a change of it (R169). -/
theorem State.statusWord_setEng_ne (moves : (s.eng e).state ≠ st) :
    (s.setEng e { s.eng e with state := st }).statusWord ≠ s.statusWord := by
  intro same
  have field := congrArg (BitVec.extractLsb' (14 + 2 * (portCode (.engine e)).toNat) 2) same
  simp only [State.statusWord_portState] at field
  have set_state : ((s.setEng e { s.eng e with state := st }).eng e).state = st := by
    simp [State.setEng_eq, State.eng]
  exact moves (set_state ▸ portStateCode_injective field).symm

/-- A port state that changes is noted for the status update, and ends a hold that is not one of CONFIGURE_PORT
(R144, R148, R169). -/
theorem State.changePortState_of_ne (moves : (s.eng e).state ≠ st)
    (unheld : (s.holdOf (.engine e)).any Hold.ofCommand = false) :
    s.changePortState e st = { s with
      engines := s.engines.set e { s.eng e with state := st }
      ports := s.ports.set (.engine e) { s.unit (.engine e) with hold := none }
      statusChanged := true } := by
  have ends : (s.holdOf (.engine e)).bind Hold.lapse = none := by
    rw [Hold.lapse_eq, if_neg]
    rintro (hold | hold) <;> simp [hold, Hold.ofCommand] at unheld
  have noted : decide ((s.setEng e { s.eng e with state := st }).statusWord = s.statusWord ∧
      (s.setEng e { s.eng e with state := st }).producer = s.producer) = false :=
    decide_eq_false fun ⟨same, _⟩ => s.statusWord_setEng_ne moves same
  rw [State.changePortState, if_neg moves, ends, State.noteFrom_eq, noted, Bool.not_false, Bool.or_true]
  rfl

/-! ### The end of the event -/

/-- `State.settle_finalResult` where another field of the status word has changed: a status update stands behind the
result whatever DONE was (R158, R169). -/
theorem State.settle_finalResult_of_noted (settled : s.settled = true) (idle : s.command = none)
    (unheld : ∀ p, (s.holdOf p).any Hold.ofCommand = false) (code : BitVec 8) (o : CommandOutcome) (detail : Nat) :
    (((s.setStatusChanged true).setReporting true).finalResult code o detail).settle =
      s.afterResult code o detail true := by
  have ports_settled := s.unit_settled settled
  simp only [State.settled, Bool.and_eq_true, Bool.not_eq_true', decide_eq_true_eq] at settled
  obtain ⟨⟨⟨-, stop_not_due⟩, irq⟩, unchanged⟩ := settled
  have result := ((s.setStatusChanged true).setReporting true).finalResult_of_idle idle unheld code o detail
  have level : (((s.setStatusChanged true).setReporting true).finalResult code o detail).irqLevel =
      (s.irqAsserted || s.enables.done) := by
    rw [result, irq]
    exact s.irqLevel_setCauses_done
  rw [State.settle_of_ports_settled _ (by rw [result]; exact ports_settled) (by rw [result]; exact stop_not_due),
    State.followIrq, level, result,
    State.raiseStatus_of_none_waiting _ (by rfl) (by exact s.not_statusWaiting_after_result code o detail)]
  simp only [State.afterResult, State.setIrqAsserted, State.setReporting_statusChanged,
    State.setStatusChanged_statusChanged, Bool.true_or, List.append_assoc, List.singleton_append, ← unchanged]
  rfl

end

/-! ### RELEASE_PORT -/

section
variable (s : State) {p : Port} {e : Engine}

theorem State.takeCommand_releasePort_of_inactive (inactive : s.opState ≠ .active) :
    s.takeCommand (.releasePort p) = s.finalResult 8 .wrongState 0 := if_neg inactive

theorem State.takeCommand_releasePort_p0 (active : s.opState = .active) :
    s.takeCommand (.releasePort .p0) = s.finalResult 8 .badArgument 0 := if_pos active

theorem State.takeCommand_releasePort_engine (active : s.opState = .active) :
    s.takeCommand (.releasePort (.engine e)) = (s.release e).finalResult 8 .ok 0 := if_pos active

theorem State.release_of_disabled (disabled : (s.eng e).state = .disabled) : s.release e = s := if_pos disabled

/-- An OPEN port stays OPEN, and only its counter is set (R149). -/
theorem State.release_of_opened (opened : (s.eng e).state = .opened) : s.release e = s.setStorm e 0 := by
  rw [State.release, if_neg (by simp [opened]), State.changePortState, if_pos opened]

/-- The state in which a port has become OPEN with its counter 0 and has lost its hold (R144, R149). -/
def State.reopened (s : State) (e : Engine) : State :=
  { s with
    engines := s.engines.set e { s.eng e with state := .opened, storm := 0 }
    ports := s.ports.set (.engine e) { s.unit (.engine e) with hold := none } }

theorem State.release_of_shut (shut : (s.eng e).state = .blocked ∨ (s.eng e).state = .quiet)
    (unheld : (s.holdOf (.engine e)).any Hold.ofCommand = false) :
    s.release e = (s.reopened e).setStatusChanged true := by
  have not_disabled : (s.eng e).state ≠ .disabled := by rcases shut with shut | shut <;> simp [shut]
  have moves : (s.eng e).state ≠ .opened := by rcases shut with shut | shut <;> simp [shut]
  rw [State.release, if_neg not_disabled, s.changePortState_of_ne moves unheld]
  simp only [State.setStorm_eq, State.eng, PerEngine.get_set_same, PerEngine.set_set_same]
  rfl

/-- What the end of an event reads of a port is not its state, its counter or its hold. -/
theorem State.settled_reopened : (s.reopened e).settled = s.settled := by
  cases e <;> rfl

theorem State.holdOf_reopened_unheld (unheld : ∀ q, (s.holdOf q).any Hold.ofCommand = false) (q : Port) :
    ((s.reopened e).holdOf q).any Hold.ofCommand = false := by
  by_cases same : q = .engine e
  · subst same
    simp [State.holdOf, State.unit, State.reopened]
  · rw [← unheld q]
    simp only [State.holdOf, State.unit, State.reopened, s.ports.get_set_other _ q _ same]

end

/-- With no command in progress the event is that of the command taken. -/
theorem exec_releasePort_of_idle {s : State} (running : s.inReset = false) (idle : s.command = none) (p : Port) :
    exec (.releasePort p) s = .next ((s.setReporting true).takeCommand (.releasePort p)).settle := calc
  exec (.releasePort p) s
  _ = s.event fun t => t.commandWritten (.releasePort p) := rfl
  _ = .next (s.commandWritten (.releasePort p)).settle := s.event_running _ running
  _ = .next ((s.setReporting true).takeCommand (.releasePort p)).settle := by
    rw [s.commandWritten_of_idle _ idle (by simp)]

/-- Settles O57: a case for each refusal and for each port state. -/
theorem releasePortIsTaken : Obligations.ReleasePortIsTaken := by
  intro s p e w arg ready idle stand
  simp only [State.ready, Bool.and_eq_true, Bool.not_eq_true'] at ready
  obtain ⟨running, settled⟩ := ready
  have unheld := s.no_command_hold stand idle
  have event := exec_releasePort_of_idle running idle
  refine ⟨commandOf_releasePort p w arg, fun inactive => ?wrongState,
    fun active => ⟨?supervisor, fun disabled => ?disabled, fun opened => ?opened, fun shut => ?shut⟩⟩
  case wrongState =>
    rw [event, (s.setReporting true).takeCommand_releasePort_of_inactive inactive,
      s.settle_finalResult settled idle unheld]
  case supervisor =>
    rw [event, (s.setReporting true).takeCommand_releasePort_p0 active, s.settle_finalResult settled idle unheld]
  case disabled =>
    rw [event, (s.setReporting true).takeCommand_releasePort_engine active,
      (s.setReporting true).release_of_disabled disabled, s.settle_finalResult settled idle unheld]
  case opened =>
    have taken : (s.setReporting true).release e = (s.setStorm e 0).setReporting true :=
      (s.setReporting true).release_of_opened opened
    rw [event, (s.setReporting true).takeCommand_releasePort_engine active, taken, (s.setStorm e 0).settle_finalResult]
    · rfl
    · cases e <;> exact settled
    · exact idle
    · exact unheld
  case shut =>
    have taken : (s.setReporting true).release e = ((s.reopened e).setStatusChanged true).setReporting true :=
      (s.setReporting true).release_of_shut shut (unheld (.engine e))
    rw [event, (s.setReporting true).takeCommand_releasePort_engine active, taken,
      (s.reopened e).settle_finalResult_of_noted (s.settled_reopened.trans settled) idle
        (s.holdOf_reopened_unheld unheld)]
    rfl

end Sys2Proof.Machine

/-! IRQ_N (R173): what a command can do, and that none leaves the pin away from the level of the causes and the
enables. -/

namespace Sys2Proof.Machine

section
variable {s t : State}

/-! ### What a command can do -/

/-- The event of a command acts and ends as every event does, or, with RESET_N asserted, does not act. -/
theorem State.unchanged_or_settles_of_event {f : State → State} (h : s.event f = .next t) :
    t = s ∨ ∃ u : State, t = u.settle :=
  (s.event_next f t h).imp_right fun acted => ⟨f s, acted⟩

theorem State.unchanged_or_settles_of_answer {wanted : Owner → Bool} {a : Answer} {f : Issued → State → State}
    (h : s.answerEvent wanted a f = .next t) : t = s ∨ ∃ u : State, t = u.settle :=
  (s.answerEvent_next wanted a f t h).imp_right fun ⟨i, rest, _, _, _, acted⟩ => ⟨f i { s with issued := rest }, acted⟩

/-- Every command is an event, with its end, or changes nothing, or is one of the two edges of RESET_N (R19, R177). -/
theorem exec_next_cases {c : Instr} (h : exec c s = .next t) :
    (t = s ∨ ∃ u : State, t = u.settle) ∨ (c = .resetAssert ∧ t = s.asserted) ∨
      ∃ anc div, c = .resetRelease anc div ∧ s.inReset = true ∧ t = s.released anc div := by
  cases c with
  | resetAssert =>
    cases h
    exact .inr (.inl ⟨rfl, rfl⟩)
  | resetRelease anc div =>
    cases h
    split
    · rename_i asserted
      exact .inr (.inr ⟨anc, div, rfl, asserted, rfl⟩)
    · exact .inl (.inl rfl)
  | requestAccept p r =>
    simp only [exec, execRequestAccept] at h
    split at h
    · exact .inl (State.unchanged_or_settles_of_event h)
    · cases h
  | timebaseTick | admission _ | grant | lockTimerExpiry | intervalExpiry
  | start | stop | loadWindow _ _ _ | clearWindow _ _ | rotate _ _ _ | invalidate _ | invalidateAll
  | releasePort _ | configurePort _ | reloadMap | drain
  | unknownCommand _ | malformed _ _ | ignoredCommand _ | commandOverrun _ _
  | consumer _ _ | enable _ _ | acknowledge _ _ =>
    simp only [exec, execTimebaseTick, execAdmission, execGrant, execLockTimerExpiry, execIntervalExpiry, execStart,
      execStop, execLoadWindow, execClearWindow, execRotate, execInvalidate, execInvalidateAll, execReleasePort,
      execConfigurePort, execReloadMap, execDrain, execUnknownCommand, execMalformed, execIgnoredCommand,
      execCommandOverrun, execConsumer, execEnable, execAcknowledge] at h
    exact .inl (State.unchanged_or_settles_of_event h)
  | pieceAnswer _ | postedEntryAnswer _ | descriptorFetchAnswer _
  | startReadAnswer _ | reloadMapReadAnswer _ | configurePortReadAnswer _
  | ringWriteAnswer _ | statusUpdateAnswer _ | resultWriteAnswer _ =>
    simp only [exec, execPieceAnswer, execPostedEntryAnswer, execDescriptorFetchAnswer, execStartReadAnswer,
      execReloadMapReadAnswer, execConfigurePortReadAnswer, execRingWriteAnswer, execStatusUpdateAnswer,
      execResultWriteAnswer] at h
    exact .inl (State.unchanged_or_settles_of_answer h)

/-! ### The level of the pin -/

/-- The level cause by cause; QUEUE is set exactly while producer and consumer differ (R170, R173). -/
theorem State.irqLevel_iff : s.irqLevel = true ↔
    s.causes.halt = true ∨ (s.producer ≠ s.consumer ∧ s.enables.queue = true) ∨
      (s.causes.overflow = true ∧ s.enables.overflow = true) ∨ (s.causes.done = true ∧ s.enables.done = true) ∨
      (s.causes.overrun = true ∧ s.enables.overrun = true) ∨
      (s.causes.misuse = true ∧ s.enables.misuse = true) := by
  simp only [State.irqLevel, State.queueCause, Bool.or_eq_true, Bool.and_eq_true, decide_eq_true_eq, or_assoc]

/-- The level is made of the causes, the enables and the ring indices alone. -/
theorem State.irqLevel_congr (causes : t.causes = s.causes) (enables : t.enables = s.enables)
    (producer : t.producer = s.producer) (consumer : t.consumer = s.consumer) : t.irqLevel = s.irqLevel := by
  unfold State.irqLevel State.queueCause
  rw [causes, enables, producer, consumer]

/-! ### The pin at its level -/

theorem State.irq_at_level_of_settled (settled : s.settled = true) : s.irqAsserted = s.irqLevel := by
  simp only [State.settled, Bool.and_eq_true, decide_eq_true_eq] at settled
  obtain ⟨⟨_, irq⟩, _⟩ := settled
  exact irq

/-- What an event ends with puts the pin at its level, and the status update raised behind that touches neither. -/
theorem State.irq_at_level_of_settle (u : State) : u.settle.irqAsserted = u.settle.irqLevel := by
  rw [State.settle, State.raiseStatus_frame]
  rfl

/-- No cause is set while RESET_N is asserted (R177). -/
theorem State.irq_at_level_of_asserted (s : State) : s.asserted.irqAsserted = s.asserted.irqLevel := rfl

/-- The straps and the count, which the release sets, have no part in the pin. -/
theorem State.irq_at_level_of_released (irq : s.irqAsserted = s.irqLevel) (anc : BitVec 12) (div : BitVec 3) :
    (s.released anc div).irqAsserted = (s.released anc div).irqLevel := by
  have pin : (s.released anc div).irqAsserted = s.irqAsserted := by simp [State.released]
  have level : (s.released anc div).irqLevel = s.irqLevel := by
    apply State.irqLevel_congr <;> simp [State.released]
  rw [pin, level, irq]

/-- Every command keeps the pin at its level (R173). -/
theorem exec_keeps_irq_at_level {c : Instr} (irq : s.irqAsserted = s.irqLevel) (h : exec c s = .next t) :
    t.irqAsserted = t.irqLevel := by
  rcases exec_next_cases h with (rfl | ⟨u, rfl⟩) | ⟨-, rfl⟩ | ⟨anc, div, -, -, rfl⟩
  · exact irq
  · exact u.irq_at_level_of_settle
  · exact s.irq_at_level_of_asserted
  · exact State.irq_at_level_of_released irq anc div

end

/-- Settles O12: the pin is at its level between events, and every command keeps it there. -/
theorem irqFollowsCausesAndEnables : Obligations.IrqFollowsCausesAndEnables := by
  intro s t c settled h
  rw [exec_keeps_irq_at_level (State.irq_at_level_of_settled settled) h]
  exact State.irqLevel_iff

end Sys2Proof.Machine

/-! The status word as the fields it shows (12.2), and what each noted change of the state leaves of the note (R169,
R174): the operations of Machine/Flags.lean and the changes of the port and operating states, field by field. -/

namespace Sys2Proof.Machine

theorem getLsbD_of_extractLsb' {n k : Nat} {w : BitVec n} {b : Bool} (field : w.extractLsb' k 1 = BitVec.ofBool b) :
    w.getLsbD k = b := by
  simpa using congrArg (BitVec.getLsbD · 0) field

/-- The places of the fields in the word, whatever their values and whatever stands above them (12.2). -/
theorem statusFields_of_parts {n : Nat} (high : BitVec n) (p3 p2 p1 : BitVec 2) (spare : BitVec 6)
    (halt misuse overrun done overflow queue busy : Bool) (op : BitVec 3) :
    let w := high ++ p3 ++ p2 ++ p1 ++ spare ++ BitVec.ofBool halt ++ BitVec.ofBool misuse ++ BitVec.ofBool overrun ++
      BitVec.ofBool done ++ BitVec.ofBool overflow ++ BitVec.ofBool queue ++ BitVec.ofBool busy ++ op
    w.extractLsb' 0 3 = op ∧ w.getLsbD 3 = busy ∧ w.getLsbD 4 = queue ∧ w.getLsbD 5 = overflow ∧
      w.getLsbD 6 = done ∧ w.getLsbD 7 = overrun ∧ w.getLsbD 8 = misuse ∧ w.getLsbD 9 = halt ∧
      w.extractLsb' 10 6 = spare ∧ w.extractLsb' 16 2 = p1 ∧ w.extractLsb' 18 2 = p2 ∧ w.extractLsb' 20 2 = p3 ∧
      w.extractLsb' 22 n = high := by
  refine ⟨?_, getLsbD_of_extractLsb' ?_, getLsbD_of_extractLsb' ?_, getLsbD_of_extractLsb' ?_,
    getLsbD_of_extractLsb' ?_, getLsbD_of_extractLsb' ?_, getLsbD_of_extractLsb' ?_, getLsbD_of_extractLsb' ?_,
    ?_, ?_, ?_, ?_, ?_⟩ <;>
    simp [BitVec.extractLsb'_append_eq_of_le, BitVec.extractLsb'_append_eq_of_add_le]

section
variable (s t : State)

/-! ### The fields of the status word -/

theorem State.statusWord_fields :
    s.statusWord.extractLsb' 0 3 = opStateCode s.opState ∧ s.statusWord.getLsbD 3 = s.command.isSome ∧
      s.statusWord.getLsbD 4 = decide (s.producer ≠ s.consumer) ∧ s.statusWord.getLsbD 5 = s.causes.overflow ∧
      s.statusWord.getLsbD 6 = s.causes.done ∧ s.statusWord.getLsbD 7 = s.causes.overrun ∧
      s.statusWord.getLsbD 8 = s.causes.misuse ∧ s.statusWord.getLsbD 9 = s.causes.halt ∧
      s.statusWord.extractLsb' 10 6 = 0 ∧ s.statusWord.extractLsb' 16 2 = portStateCode (s.eng .p1).state ∧
      s.statusWord.extractLsb' 18 2 = portStateCode (s.eng .p2).state ∧
      s.statusWord.extractLsb' 20 2 = portStateCode (s.eng .p3).state ∧ s.statusWord.extractLsb' 22 10 = 0 :=
  statusFields_of_parts ..

theorem Causes.eq_of_fields {c d : Causes} (overflow : c.overflow = d.overflow) (done : c.done = d.done)
    (overrun : c.overrun = d.overrun) (misuse : c.misuse = d.misuse) (halt : c.halt = d.halt) : c = d := by
  cases c
  cases d
  simp_all only

theorem opStateCode_injective : Function.Injective opStateCode := by
  intro a b
  cases a <;> cases b <;> simp [opStateCode]

/-- Two states show the same status word exactly where they agree in every field it is made of. -/
theorem State.statusWord_eq_iff : t.statusWord = s.statusWord ↔
    t.opState = s.opState ∧ t.command.isSome = s.command.isSome ∧ t.queueCause = s.queueCause ∧
      t.causes = s.causes ∧ ∀ e, (t.eng e).state = (s.eng e).state := by
  constructor
  · intro same
    obtain ⟨op, busy, queue, overflow, done, overrun, misuse, halt, -, p1, p2, p3, -⟩ := s.statusWord_fields
    obtain ⟨op', busy', queue', overflow', done', overrun', misuse', halt', -, p1', p2', p3', -⟩ := t.statusWord_fields
    rw [same] at op' busy' queue' overflow' done' overrun' misuse' halt' p1' p2' p3'
    refine ⟨opStateCode_injective (op'.symm.trans op), busy'.symm.trans busy, queue'.symm.trans queue, ?_, ?_⟩
    · exact Causes.eq_of_fields (overflow'.symm.trans overflow) (done'.symm.trans done) (overrun'.symm.trans overrun)
        (misuse'.symm.trans misuse) (halt'.symm.trans halt)
    · intro e
      apply portStateCode_injective
      cases e with
      | p1 => exact p1'.symm.trans p1
      | p2 => exact p2'.symm.trans p2
      | p3 => exact p3'.symm.trans p3
  · rintro ⟨op, busy, queue, causes, states⟩
    simp only [State.statusWord, op, busy, queue, causes, states]

/-! ### Noted changes, field by field -/

theorem State.noteFrom_of_iff {b : Bool} (kept : t.statusWord = s.statusWord ∧ t.producer = s.producer ↔ b = false) :
    s.noteFrom t = { t with statusChanged := t.statusChanged || b } := by
  have noted : decide (t.statusWord = s.statusWord ∧ t.producer = s.producer) = !b := by
    rw [decide_eq_decide.2 kept]
    cases b <;> rfl
  rw [State.noteFrom_eq, noted, Bool.not_not]

theorem State.changeCauses_eq (c : Causes) :
    s.changeCauses c = { s with causes := c, statusChanged := s.statusChanged || decide (c ≠ s.causes) } := by
  refine s.noteFrom_of_iff (s.setCauses c) ?_
  have queue : (s.setCauses c).queueCause = s.queueCause := rfl
  rw [State.statusWord_eq_iff, queue]
  simp [State.eng]

theorem State.setOverflow_eq : s.setOverflow = { s with
    causes := { s.causes with overflow := true }, statusChanged := s.statusChanged || !s.causes.overflow } := by
  rw [State.setOverflow, State.changeCauses_eq]
  cases s.causes with | mk overflow => cases overflow <;> simp

theorem State.setOverrun_eq : s.setOverrun = { s with
    causes := { s.causes with overrun := true }, statusChanged := s.statusChanged || !s.causes.overrun } := by
  rw [State.setOverrun, State.changeCauses_eq]
  cases s.causes with | mk _ _ overrun => cases overrun <;> simp

theorem State.setMisuse_eq : s.setMisuse = { s with
    causes := { s.causes with misuse := true }, statusChanged := s.statusChanged || !s.causes.misuse } := by
  rw [State.setMisuse, State.changeCauses_eq]
  cases s.causes with | mk _ _ _ misuse => cases misuse <;> simp

theorem State.setHalt_eq : s.setHalt = { s with
    causes := { s.causes with halt := true }, statusChanged := s.statusChanged || !s.causes.halt } := by
  rw [State.setHalt, State.changeCauses_eq]
  cases s.causes with | mk _ _ _ _ halt => cases halt <;> simp

theorem State.clearHalt_eq : s.clearHalt = { s with
    causes := { s.causes with halt := false }, statusChanged := s.statusChanged || s.causes.halt } := by
  rw [State.clearHalt, State.changeCauses_eq]
  cases s.causes with | mk _ _ _ _ halt => cases halt <;> simp

theorem State.changeCommand_eq (c : Option Command) :
    s.changeCommand c = { s with
      command := c, statusChanged := s.statusChanged || (c.isSome != s.command.isSome) } := by
  refine s.noteFrom_of_iff (s.setCommand c) ?_
  have queue : (s.setCommand c).queueCause = s.queueCause := rfl
  rw [State.statusWord_eq_iff, queue]
  simp [State.eng]

theorem State.changeIndices_eq (p c : Nat) :
    s.changeIndices p c = { s with
      producer := p
      consumer := c
      statusChanged := s.statusChanged || (decide (p ≠ s.producer) || (decide (p ≠ c) != s.queueCause)) } := by
  refine s.noteFrom_of_iff ((s.setProducer p).setConsumer c) ?_
  have queue : ((s.setProducer p).setConsumer c).queueCause = decide (p ≠ c) := rfl
  rw [State.statusWord_eq_iff, queue]
  simp [State.eng, and_comm, Bool.eq_not]

theorem State.portsUnheld_eq : s.endHolds (fun _ => true) = { s with ports := s.portsUnheld } := s.endHolds_all

/-- A change of the port state: the hold of the port ends, and the change is noted (R144, R148, R169). -/
theorem State.changePortState_eq (e : Engine) (st : PortState) :
    s.changePortState e st = { s with
      engines := s.engines.set e { s.eng e with state := st }
      ports := if (s.eng e).state = st then s.ports
        else s.ports.set (.engine e) (s.unit (.engine e)).afterPortChange
      statusChanged := s.statusChanged || decide ((s.eng e).state ≠ st) } := by
  by_cases same : (s.eng e).state = st
  · subst same
    have kept : s.engines.set e (s.eng e) = s.engines := s.engines.set_get_same e
    simp [State.changePortState, kept]
  · have noted : s.noteFrom (s.setEng e { s.eng e with state := st }) =
        (s.setEng e { s.eng e with state := st }).setStatusChanged true :=
      if_neg fun ⟨word, _⟩ => s.statusWord_setEng_ne same word
    rw [State.changePortState, if_neg same, noted, Hold.lapse_eq]
    simp only [same, if_false, ne_eq, not_false_eq_true, decide_true, Bool.or_true]
    rfl

theorem State.changeOp_eq (st : OpState) :
    s.changeOp st = { s with
      opState := st
      ports := if s.opState = st then s.ports else s.portsUnheld
      statusChanged := s.statusChanged || decide (s.opState ≠ st) } := by
  by_cases same : s.opState = st
  · subst same
    simp [State.changeOp]
  · have noted : s.noteFrom (s.setOpState st) = (s.setOpState st).setStatusChanged true :=
      if_neg fun ⟨word, _⟩ => same ((State.statusWord_eq_iff s (s.setOpState st)).1 word).1.symm
    rw [State.changeOp, if_neg same, noted, State.portsUnheld_eq]
    simp [same, State.setStatusChanged, State.setOpState, State.portsUnheld]

/-! ### Results and status updates -/

theorem State.raiseResult_eq (code : BitVec 8) (o : CommandOutcome) (detail : Nat) :
    s.raiseResult code o detail = { s with
      ctl := s.ctlUnwaiting ++ [s.resultRequest code o detail]
      statusChanged := s.statusChanged || s.statusWaiting } := s.raiseResult_frame code o detail

/-- A final result ends the command in progress with its holds and sets DONE (R158). -/
theorem State.finalResult_eq (code : BitVec 8) (o : CommandOutcome) (detail : Nat) :
    s.finalResult code o detail = { s with
      ctl := s.ctlUnwaiting ++ [s.resultRequest code o detail]
      command := none
      causes := { s.causes with done := true }
      ports := s.ports.map fun u => if u.hold.any Hold.ofCommand then { u with hold := none } else u
      statusChanged := s.statusChanged || s.statusWaiting || s.command.isSome || !s.causes.done } := by
  simp [State.finalResult, State.raiseResult_eq, State.changeCommand_eq, State.setDone_eq, State.endHolds_eq]

theorem State.begin_eq (c : CommandWrite) (k : Command) :
    s.begin c k = { s with
      ctl := s.ctlUnwaiting ++ [s.resultRequest (commandCode c) .inProgress 0]
      command := some k
      statusChanged := s.statusChanged || !s.command.isSome || s.statusWaiting } := by
  simp only [State.begin, State.raiseResult_eq, State.changeCommand_eq, Option.isSome_some, Bool.true_bne]
  rfl

/-- What is owed at the end of an event (R169). -/
theorem State.raiseStatus_eq : s.raiseStatus = { s with
    ctl := s.ctl ++ if s.statusChanged && s.reporting && !s.statusWaiting then [s.statusRequest] else []
    statusChanged := false } := by
  unfold State.raiseStatus
  split
  · rfl
  · simp [State.setStatusChanged]

end
end Sys2Proof.Machine

/-! The end of an event (R4, R2, R165, R173, R169) as one equation: the state with its responses given, its pin at the
level and its status update raised, with STOP completed where that is due. Between two steps nothing is left due (O3).
-/

namespace Sys2Proof.Machine

/-! ### A Port Unit after its responses -/

theorem splitDecided_undecided (q : List QEntry) : ((splitDecided q).2.head?.all fun e => !e.isDecided) = true := by
  induction q with
  | nil => rfl
  | cons e q ih =>
    obtain ⟨req, ph⟩ := e
    cases ph with
    | decided r => exact ih
    | waiting | admitted _ | issued _ _ _ => rfl

/-- A Port Unit whose due responses are given, its link not yet looked at (R4). -/
def PortUnit.responded (u : PortUnit) : PortUnit :=
  { u with queue := (splitDecided u.queue).2, given := u.given ++ (splitDecided u.queue).1 }

theorem PortUnit.answer_of_no_link {u : PortUnit} (no_link : u.link = none) : u.answer = u.responded := by
  simp only [PortUnit.answer, no_link, PortUnit.responded]

theorem PortUnit.answer_of_full {u : PortUnit} (full : Config.queueDepth ≤ u.responded.queue.length) :
    u.answer = u.responded := by
  cases link : u.link with
  | none => exact answer_of_no_link link
  | some r =>
    simp only [PortUnit.answer, link]
    exact (if_neg (Nat.not_lt.2 full)).trans (by rw [PortUnit.responded, link])

theorem PortUnit.answer_of_room {u : PortUnit} {r : Request} (link : u.link = some r)
    (room : u.responded.queue.length < Config.queueDepth) :
    u.answer = { u.responded with queue := u.responded.queue ++ [⟨r, .waiting⟩], link := none } := by
  simp only [PortUnit.answer, link]
  exact if_pos room

/-- All that a Port Unit can do at the end of an event. -/
theorem PortUnit.answer_cases (u : PortUnit) :
    (u.answer = u.responded ∧ (u.link = none ∨ Config.queueDepth ≤ u.responded.queue.length)) ∨
      ∃ r, u.answer = { u.responded with queue := u.responded.queue ++ [⟨r, .waiting⟩], link := none } := by
  cases link : u.link with
  | none => exact .inl ⟨answer_of_no_link link, .inl rfl⟩
  | some r =>
    rcases Nat.lt_or_ge u.responded.queue.length Config.queueDepth with room | full
    · exact .inr ⟨r, answer_of_room link room⟩
    · exact .inl ⟨answer_of_full full, .inr full⟩

/-- A Port Unit that has answered has nothing left to give or to accept (R2, R4). -/
theorem PortUnit.settled_answer (u : PortUnit) : u.answer.settled = true := by
  have undecided : (u.responded.queue.head?.all fun e => !e.isDecided) = true := splitDecided_undecided u.queue
  rcases u.answer_cases with ⟨answer, no_room⟩ | ⟨r, answer⟩ <;> rw [answer]
  · have link : u.responded.link = u.link := rfl
    simpa [PortUnit.settled, undecided, link] using no_room
  · cases rest : u.responded.queue with
    | nil => simp [PortUnit.settled, QEntry.isDecided]
    | cons x back => simpa [PortUnit.settled, rest] using undecided

theorem PortUnit.answer_answer (u : PortUnit) : u.answer.answer = u.answer :=
  u.answer.answer_of_settled u.settled_answer

theorem splitDecided_all (f : QEntry → Bool) (decided : ∀ e r, e.phase = .decided r → f e = true) (q : List QEntry) :
    (splitDecided q).2.all f = q.all f := by
  induction q with
  | nil => rfl
  | cons e q ih =>
    obtain ⟨req, ph⟩ := e
    cases ph with
    | decided r => simp [splitDecided, ih, decided ⟨req, .decided r⟩ r rfl]
    | waiting | admitted _ | issued _ _ _ => rfl

/-- What a Port Unit gives and accepts are DECIDED and WAITING entries, so a test that both pass is left as it was. -/
theorem PortUnit.queue_answer_all (f : QEntry → Bool) (decided : ∀ e r, e.phase = .decided r → f e = true)
    (waiting : ∀ e, e.phase = .waiting → f e = true) (u : PortUnit) : u.answer.queue.all f = u.queue.all f := by
  have responded : u.responded.queue.all f = u.queue.all f := splitDecided_all f decided u.queue
  rcases u.answer_cases with ⟨answer, -⟩ | ⟨r, answer⟩
  · rw [answer, responded]
  · simp [answer, responded, waiting ⟨r, .waiting⟩ rfl]

@[simp] theorem PortUnit.hold_answer (u : PortUnit) : u.answer.hold = u.hold := by
  rcases u.answer_cases with ⟨answer, -⟩ | ⟨r, answer⟩ <;> rw [answer] <;> rfl

@[simp] theorem PortUnit.nextPlace_answer (u : PortUnit) : u.answer.nextPlace = u.nextPlace := by
  rcases u.answer_cases with ⟨answer, -⟩ | ⟨r, answer⟩ <;> rw [answer] <;> rfl

/-- The hold and the next place take no part in the answers. -/
theorem PortUnit.answer_setHold (u : PortUnit) (h : Option Hold) :
    ({ u with hold := h } : PortUnit).answer = { u.answer with hold := h } := by
  unfold PortUnit.answer
  cases u.link with
  | none => rfl
  | some r => dsimp only; split <;> rfl

theorem PortUnit.answer_setNextPlace (u : PortUnit) (n : Nat) :
    ({ u with nextPlace := n } : PortUnit).answer = { u.answer with nextPlace := n } := by
  unfold PortUnit.answer
  cases u.link with
  | none => rfl
  | some r => dsimp only; split <;> rfl

section
variable (s : State)

/-! ### STOP's conditions and its completion -/

theorem State.enginesIdle_answerLinks : s.answerLinks.enginesIdle = s.enginesIdle := by
  have idle (u : PortUnit) : u.answer.queue.all (fun e => !e.isAdmitted && !e.isIssued) =
      u.queue.all fun e => !e.isAdmitted && !e.isIssued :=
    u.queue_answer_all _ (fun e r h => by simp [QEntry.isAdmitted, QEntry.isIssued, h])
      fun e h => by simp [QEntry.isAdmitted, QEntry.isIssued, h]
  simp [State.enginesIdle, State.answerLinks_eq, PerPort.map, PerEngine.map, PerEngine.toList, idle]

theorem State.stopDue_answerLinks : s.answerLinks.stopDue = s.stopDue := by
  rw [State.stopDue, State.enginesIdle_answerLinks]
  rfl

/-- What decides whether STOP is due (R165). -/
theorem State.stopDue_congr {s t : State} (opState : t.opState = s.opState) (idle : t.enginesIdle = s.enginesIdle)
    (buffer : t.buffer = s.buffer) (staged : t.staged = s.staged) (ring : t.ring = s.ring)
    (producer : t.producer = s.producer) (consumer : t.consumer = s.consumer) : t.stopDue = s.stopDue := by
  simp only [State.stopDue, State.bufferEmpty, State.writingHead, State.ringFull, opState, idle, buffer, staged, ring,
    producer, consumer]

theorem State.portsUnheld_changePortState (e : Engine) (st : PortState) :
    (s.changePortState e st).portsUnheld = s.portsUnheld := by
  rw [State.changePortState_eq]
  unfold State.portsUnheld
  dsimp only
  split
  · rfl
  · cases e <;> rfl

theorem State.portsUnheld_endHolds (f : Hold → Bool) : (s.endHolds f).portsUnheld = s.portsUnheld := by
  have unheld (u : PortUnit) : { (if u.hold.any f then { u with hold := none } else u : PortUnit) with hold := none } =
      { u with hold := none } := by split <;> rfl
  simp only [State.endHolds_eq, State.portsUnheld, PerPort.map, PerEngine.map, unheld]

theorem State.portsUnheld_emptyAllWindows : s.emptyAllWindows.portsUnheld = s.portsUnheld :=
  State.portsUnheld_endHolds _ _

/-- The completion event of STOP from STOPPING (R165). -/
theorem State.completeStop_eq (stopping : s.opState = .stopping) : s.completeStop = { s with
    ports := ⟨({ s.unit .p0 with hold := none } : PortUnit).answer,
      s.ports.engines.map fun u => u.refuseAll QEntry.isWaiting .notActive⟩
    engines := s.engines.map fun u => { u with state := .disabled, windows := eightOf Window.reset }
    fetches := s.fetchesCancelled
    ctl := s.ctlUnwaiting ++ [s.resultRequest 2 .ok 0]
    nextExpiry := none
    opState := .boot
    command := none
    causes := { s.causes with done := true }
    statusChanged := true } := by
  obtain ⟨d, emptied⟩ : ∃ d, d = (s.refuseEngineEntries QEntry.isWaiting .notActive).emptyAllWindows.disableEngines :=
    ⟨_, rfl⟩
  have unheld : d.portsUnheld = ⟨{ s.unit .p0 with hold := none }, s.ports.engines.map fun u => { u with
        queue := u.queue.map fun x => if x.isWaiting then x.decide (.refused .notActive) else x, hold := none }⟩ := by
    simp only [emptied, State.disableEngines, State.portsUnheld_changePortState, State.portsUnheld_emptyAllWindows]
    rfl
  have completed : s.completeStop = (((d.setNextExpiry none).changeOp .boot).finalResult 2 .ok 0).answerLinks := by
    rw [emptied]
    rfl
  have moves : (d.setNextExpiry none).opState ≠ .boot := by
    rw [emptied, State.disableEngines_frame]
    exact fun h => by cases stopping.symm.trans h
  have ports : (d.setNextExpiry none).portsUnheld = d.portsUnheld := rfl
  rw [State.completeStop_frame, completed, State.changeOp_eq, if_neg moves, decide_eq_true moves, State.finalResult_eq,
    ports, unheld, State.answerLinks_eq]
  simp only [State.mk.injEq, true_and, Bool.or_true, Bool.true_or, and_true]
  refine ⟨rfl, rfl, ?_⟩
  rw [emptied, State.disableEngines_frame]
  rfl

theorem State.discardStaged_eq : s.discardStaged = { s with
    staged := []
    causes := { s.causes with overflow := s.causes.overflow || !s.staged.isEmpty }
    statusChanged := s.statusChanged || (!s.staged.isEmpty && !s.causes.overflow) } := by
  have noted : s.discardStaged.statusChanged =
      (s.statusChanged || (!s.staged.isEmpty && !s.causes.overflow)) := by
    unfold State.discardStaged
    cases s.staged with
    | nil => simp
    | cons h rest => simp [State.setOverflow_eq]
  rw [State.discardStaged_frame, noted]

/-! ### The end of an event -/

/-- The state with its responses given, its pin at the level and its status update raised, whether or not STOP is due
to complete. -/
def State.concluded (s : State) : State :=
  { s with
    ports := s.ports.map PortUnit.answer
    irqAsserted := s.irqLevel
    ctl := s.ctl ++ if s.statusChanged && s.reporting && !s.statusWaiting then [s.statusRequest] else []
    statusChanged := false }

theorem State.stopDue_concluded : s.concluded.stopDue = s.stopDue := s.stopDue_answerLinks

theorem State.settle_of_stop_not_due (not_due : s.stopDue = false) : s.settle = s.concluded := by
  rw [State.settle, State.tryStop_of_not_due _ (s.stopDue_answerLinks.trans not_due), State.raiseStatus_eq]
  rfl

theorem State.ctlUnwaiting_append_status {b : Prop} [Decidable b] :
    (s.ctl ++ if b then [s.statusRequest] else []).filter (fun r => !r.isStatus) = s.ctlUnwaiting := by
  split <;> simp [State.statusRequest, CtlRequest.isStatus, State.ctlUnwaiting]

theorem State.stopped_concluded : s.concluded.stopped = s.answerLinks.stopped := by
  have waiting : s.concluded.ctlUnwaiting = s.ctlUnwaiting := s.ctlUnwaiting_append_status
  simp only [State.stopped, waiting]
  rfl

/-- STOP completed, with the pin following and the status update of the event raised (R165, R169, R173). -/
theorem State.tryStop_ended_of_due (due : s.stopDue = true) : s.tryStop.followIrq.raiseStatus = { s.stopped with
    ports := ⟨({ s.unit .p0 with hold := none } : PortUnit).answer, s.stopped.ports.engines⟩ } := by
  have stopping : s.opState = .stopping := by
    simp only [State.stopDue, Bool.and_eq_true, decide_eq_true_eq] at due
    obtain ⟨⟨⟨stopping, -⟩, -⟩, -⟩ := due
    exact stopping
  have waits (t : State) (ctl : t.ctl = s.discardStaged.ctlUnwaiting ++ [s.discardStaged.resultRequest 2 .ok 0]) :
      t.statusWaiting = false := by
    rw [State.statusWaiting, ctl]
    exact State.not_statusWaiting_after_result ..
  rw [State.tryStop_of_due _ due, State.completeStop_eq _ (by rw [State.discardStaged_eq]; exact stopping),
    State.raiseStatus_eq, waits _ rfl]
  simp only [State.discardStaged_eq, State.followIrq, State.setIrqAsserted, State.stopped, Bool.true_and,
    Bool.not_false, Bool.and_true, List.append_assoc]
  rfl

theorem State.settle_of_stop_due (due : s.stopDue = true) : s.settle = s.answerLinks.stopped := by
  have p0 : ({ s.answerLinks.unit .p0 with hold := none } : PortUnit).answer =
      { s.answerLinks.unit .p0 with hold := none } := by
    rw [PortUnit.answer_setHold]
    exact congrArg (fun u : PortUnit => ({ u with hold := none } : PortUnit)) (s.ports.p0.answer_answer)
  rw [State.settle, State.tryStop_ended_of_due _ (s.stopDue_answerLinks.trans due), p0]
  rfl

/-- The end of every event: responses, IRQ_N and the status update, and STOP where it is due (R4, R165, R169, R173). -/
theorem State.settle_eq : s.settle = s.concluded.stopIfDue := by
  unfold State.stopIfDue
  rw [State.stopDue_concluded, State.stopped_concluded]
  split
  · rename_i due
    exact s.settle_of_stop_due due
  · rename_i not_due
    exact s.settle_of_stop_not_due (by simpa using not_due)

/-! ### Nothing due -/

theorem State.settled_iff : s.settled = true ↔
    (∀ p, (s.unit p).settled = true) ∧ s.stopDue = false ∧ s.irqAsserted = s.irqLevel ∧ s.statusChanged = false := by
  have ports : (allPorts.all fun p => (s.unit p).settled) = true ↔ ∀ p, (s.unit p).settled = true := by
    constructor
    · intro all p
      exact List.all_eq_true.1 all p (by rcases p with _ | _ | _ | _ <;> decide)
    · exact fun all => List.all_eq_true.2 fun p _ => all p
  simp only [State.settled, Bool.and_eq_true, ports, Bool.not_eq_true', decide_eq_true_eq, and_assoc]

theorem State.settled_concluded (not_due : s.stopDue = false) : s.concluded.settled = true := by
  refine s.concluded.settled_iff.2 ⟨fun p => ?_, s.stopDue_concluded.trans not_due, rfl, rfl⟩
  have answered : s.concluded.unit p = (s.unit p).answer := s.ports.get_map p _
  rw [answered, PortUnit.settled_answer]

/-- A completed STOP leaves nothing due where P0 had nothing to give or to accept. -/
theorem State.settled_stopped (supervisor : (s.unit .p0).settled = true) : s.stopped.settled = true := by
  refine s.stopped.settled_iff.2 ⟨fun p => ?_, rfl, rfl, rfl⟩
  cases p with
  | p0 => exact supervisor
  | engine e =>
    have answered : s.stopped.unit (.engine e) = (s.unit (.engine e)).refuseAll QEntry.isWaiting .notActive :=
      s.ports.engines.get_map e _
    rw [answered]
    exact PortUnit.settled_answer _

theorem State.settled_settle : s.settle.settled = true := by
  rw [State.settle_eq, State.stopIfDue, State.stopDue_concluded]
  split
  · refine State.settled_stopped _ ?_
    exact PortUnit.settled_answer _
  · rename_i not_due
    exact s.settled_concluded (by simpa using not_due)

variable {s} in
theorem State.concluded_of_settled (settled : s.settled = true) : s.concluded = s := by
  obtain ⟨ports, -, irq, unchanged⟩ := s.settled_iff.1 settled
  have answered : s.ports.map PortUnit.answer = s.ports :=
    s.ports.map_unchanged _ fun p => PortUnit.answer_of_settled _ (ports p)
  have no_update : s.ctl ++ (if s.statusChanged && s.reporting && !s.statusWaiting then [s.statusRequest] else []) =
      s.ctl := by simp [unchanged]
  rw [State.concluded, answered, ← irq, no_update, ← unchanged]

variable {s} in
theorem State.settle_of_settled (settled : s.settled = true) : s.settle = s := by
  rw [s.settle_of_stop_not_due (s.settled_iff.1 settled).2.1, State.concluded_of_settled settled]

end

theorem State.settled_asserted (s : State) : s.asserted.settled = true :=
  s.asserted.settled_iff.2 ⟨fun p => by rcases p with _ | _ | _ | _ <;> rfl, rfl, rfl, rfl⟩

theorem State.released_eq (s : State) (anc : BitVec 12) (div : BitVec 3) :
    s.released anc div = { s with inReset := false, anc := anc, div := div, now := 0 } := by
  simp only [State.released, State.setNow, State.setDiv, State.setAnc, State.setInReset]

/-- What the release of RESET_N sets takes no part in what is due. -/
theorem State.settled_released (s : State) (anc : BitVec 12) (div : BitVec 3) :
    (s.released anc div).settled = s.settled := by
  rw [State.released_eq]
  rfl

/-- Every command leaves nothing due where nothing was. -/
theorem exec_keeps_settled {s t : State} {c : Instr} (settled : s.settled = true) (h : exec c s = .next t) :
    t.settled = true := by
  rcases exec_next_cases h with (rfl | ⟨u, rfl⟩) | ⟨-, rfl⟩ | ⟨anc, div, -, -, rfl⟩
  · exact settled
  · exact u.settled_settle
  · exact s.settled_asserted
  · rw [State.settled_released, settled]

/-- A step idles or carries out the command at the front of the queue. -/
theorem step_next_cases {s t : State} (h : step s = .next t) :
    t = s ∨ ∃ c rest, exec c (s.setPending rest) = .next t := by
  unfold step at h
  split at h
  · cases h
    exact .inl rfl
  · exact .inr ⟨_, _, h⟩

/-- Settles O3: the end of an event is one equation, and every command is an event or one of the edges of RESET_N. -/
theorem everyStepLeavesNothingDue : Obligations.EveryStepLeavesNothingDue := by
  refine ⟨fun s => ⟨s.settled_settle, State.settle_of_settled⟩, fun s t settled h => ?_⟩
  rcases step_next_cases h with rfl | ⟨c, rest, h⟩
  · exact settled
  · exact exec_keeps_settled (s := s.setPending rest) settled h

end Sys2Proof.Machine

/-! The queue of commands, reset and its two edges (R19, R177), and the words with their fields (12.1 to 12.4). -/

namespace Sys2Proof.Machine

/-! ### What each row of the table does -/

/-- The operation of an event that is not an answer of memory; none for the answers and the edges of RESET_N. -/
def eventOf : Instr → Option (State → State)
  | .timebaseTick => some State.tick
  | .requestAccept p r => some fun t => t.present p r
  | .admission p => some fun t => t.admitOldest p
  | .grant => some State.arbitrate
  | .lockTimerExpiry => some State.takeLockExpiry
  | .intervalExpiry => some State.takeIntervalExpiry
  | .start => some fun t => t.commandWritten .start
  | .stop => some fun t => t.commandWritten .stop
  | .loadWindow p w arg => some fun t => t.commandWritten (.loadWindow p w arg)
  | .clearWindow p w => some fun t => t.commandWritten (.clearWindow p w)
  | .rotate p w arg => some fun t => t.commandWritten (.rotate p w arg)
  | .invalidate arg => some fun t => t.commandWritten (.invalidate arg)
  | .invalidateAll => some fun t => t.commandWritten .invalidateAll
  | .releasePort p => some fun t => t.commandWritten (.releasePort p)
  | .configurePort p => some fun t => t.commandWritten (.configurePort p)
  | .reloadMap => some fun t => t.commandWritten .reloadMap
  | .drain => some fun t => t.commandWritten .drain
  | .unknownCommand w => some fun t => t.commandWord 15 w
  | .malformed l w => some fun t => t.commandWord l w
  | .ignoredCommand w => some fun t => t.commandWord 15 w
  | .commandOverrun l w => some fun t => t.commandWord l w
  | .consumer l w => some fun t => t.consumerWord l w
  | .enable l w => some fun t => t.enableWord l w
  | .acknowledge l w => some fun t => t.acknowledgeWord l w
  | .resetAssert | .resetRelease _ _ | .pieceAnswer _ | .postedEntryAnswer _ | .descriptorFetchAnswer _
  | .startReadAnswer _ | .reloadMapReadAnswer _ | .configurePortReadAnswer _ | .ringWriteAnswer _
  | .statusUpdateAnswer _ | .resultWriteAnswer _ => none

/-- An answer of memory: the owners it can answer, the words it carries, and what it does with the request. -/
structure Answering where
  wanted : Owner → Bool
  carries : Answer
  acts : Issued → State → State

/-- The rows that are answers of memory (R15). -/
def answeringOf : Instr → Option Answering
  | .pieceAnswer a => some ⟨Owner.isPiece, a, fun i t => t.answerPiece i a⟩
  | .postedEntryAnswer a => some ⟨Owner.isPosted, answerOfAck a, fun i t => t.answerPosted i a⟩
  | .descriptorFetchAnswer a => some ⟨Owner.isCtl .fetch, a, fun _ t => t.answerFetch a⟩
  | .startReadAnswer a => some ⟨Owner.isCtl .startRead, a, fun i t => t.answerStartRead i a⟩
  | .reloadMapReadAnswer a => some ⟨Owner.isCtl .reloadRead, a, fun i t => t.answerReloadRead i a⟩
  | .configurePortReadAnswer a => some ⟨Owner.isCtl .portRead, a, fun i t => t.answerPortRead i a⟩
  | .ringWriteAnswer a => some ⟨Owner.isCtl .recordWrite, answerOfAck a, fun i t => t.answerRecord i a⟩
  | .statusUpdateAnswer a => some ⟨Owner.isCtl .statusUpdate, answerOfAck a, fun i t => t.answerReport i a⟩
  | .resultWriteAnswer a => some ⟨Owner.isCtl .resultWrite, answerOfAck a, fun i t => t.answerReport i a⟩
  | _ => none

theorem exec_of_answering {c : Instr} {m : Answering} (row : answeringOf c = some m) (s : State) :
    exec c s = s.answerEvent m.wanted m.carries m.acts := by
  cases c <;> cases row <;> rfl

theorem exec_requestAccept (p : Port) (r : Request) (s : State) :
    exec (.requestAccept p r) s = if r.wf then s.event fun t => t.present p r else .refused .noLinkEncoding := rfl

/-- The row presents a request on a link (R2), which it can only where the link has an encoding for it. -/
def presentsRequest : Instr → Bool
  | .requestAccept _ _ => true
  | _ => false

theorem exec_of_event {c : Instr} {f : State → State} (row : eventOf c = some f) (s : State)
    (inside : presentsRequest c = false) : exec c s = s.event f := by
  cases c with
  | requestAccept p r => cases inside
  | _ => cases row <;> rfl

/-- Every row is an event, an answer of memory, or an edge of RESET_N; a request without an encoding is refused. -/
theorem exec_cases (s : State) (c : Instr) :
    (∃ f, eventOf c = some f ∧ exec c s = s.event f) ∨
      (∃ m, answeringOf c = some m ∧ exec c s = s.answerEvent m.wanted m.carries m.acts) ∨
      c = .resetAssert ∨ (∃ x y, c = .resetRelease x y) ∨
      ∃ p r, c = .requestAccept p r ∧ r.wf = false ∧ exec c s = .refused .noLinkEncoding := by
  by_cases presents : presentsRequest c = true
  · cases c with
    | requestAccept p r =>
      cases encoded : r.wf with
      | true => exact .inl ⟨_, rfl, (exec_requestAccept p r s).trans (if_pos encoded)⟩
      | false =>
        exact .inr (.inr (.inr (.inr
          ⟨p, r, rfl, encoded, (exec_requestAccept p r s).trans (if_neg (by simp [encoded]))⟩)))
    | _ => cases presents
  · rw [Bool.not_eq_true] at presents
    cases row : eventOf c with
    | some f => exact .inl ⟨f, rfl, exec_of_event row s presents⟩
    | none =>
      cases answering : answeringOf c with
      | some m => exact .inr (.inl ⟨m, rfl, exec_of_answering answering s⟩)
      | none =>
        cases c with
        | resetAssert => exact .inr (.inr (.inl rfl))
        | resetRelease x y => exact .inr (.inr (.inr (.inl ⟨x, y, rfl⟩)))
        | _ => simp [eventOf, answeringOf] at row answering

/-- All that a command can do when it gives a next state: nothing, an event's operation or an answer's with what ends
an event, or an edge of RESET_N. -/
theorem exec_next_acts {s t : State} {c : Instr} (h : exec c s = .next t) :
    t = s ∨ (∃ f, eventOf c = some f ∧ t = (f s).settle) ∨
      (∃ m i rest, answeringOf c = some m ∧ s.issued = i :: rest ∧ m.wanted i.owner = true ∧
        answerFits m.carries i = true ∧ t = (m.acts i { s with issued := rest }).settle) ∨
      (c = .resetAssert ∧ t = s.asserted) ∨
      ∃ x y, c = .resetRelease x y ∧ s.inReset = true ∧ t = s.released x y := by
  rcases exec_cases s c with ⟨f, row, event⟩ | ⟨m, row, answer⟩ | rfl | ⟨x, y, rfl⟩ | ⟨p, r, rfl, -, refused⟩
  · rcases s.event_next f t (event.symm.trans h) with same | acts
    · exact .inl same
    · exact .inr (.inl ⟨f, row, acts⟩)
  · rcases s.answerEvent_next _ _ _ t (answer.symm.trans h) with same | ⟨i, rest, issued, wanted, fits, acts⟩
    · exact .inl same
    · exact .inr (.inr (.inl ⟨m, i, rest, row, issued, wanted, fits, acts⟩))
  · cases h
    exact .inr (.inr (.inr (.inl ⟨rfl, rfl⟩)))
  · cases h
    split
    · rename_i held
      exact .inr (.inr (.inr (.inr ⟨x, y, rfl, held, rfl⟩)))
    · exact .inl rfl
  · cases refused.symm.trans h

/-- Settles O1. -/
theorem stepRunsTheFrontCommand : Obligations.StepRunsTheFrontCommand := by
  intro s c rest
  refine ⟨fun front => ?_, fun empty => ?_⟩
  · rw [step, front]
    rfl
  · rw [step, empty]

/-! ### Reset -/

theorem State.answerEvent_inReset {s : State} (held : s.inReset = true) (wanted : Owner → Bool) (a : Answer)
    (f : Issued → State → State) : s.answerEvent wanted a f = .next s := by
  simp [State.answerEvent, held]

/-- While RESET_N is asserted no event acts (R177). -/
theorem exec_of_inReset {s : State} {c : Instr} (held : s.inReset = true) (wf : c.wf = true) (on : c ≠ .resetAssert)
    (off : ∀ x y, c ≠ .resetRelease x y) : exec c s = .next s := by
  rcases exec_cases s c with ⟨f, -, event⟩ | ⟨m, -, answer⟩ | rfl | ⟨x, y, rfl⟩ | ⟨p, r, rfl, ill, -⟩
  · rw [event, s.event_inReset f held]
  · rw [answer, State.answerEvent_inReset held]
  · exact absurd rfl on
  · exact absurd rfl (off x y)
  · rw [Instr.wf, ill] at wf
    cases wf

theorem State.asserted_eq (s : State) :
    s.asserted = { State.reset with inReset := true, freeCounter := s.freeCounter, pending := s.pending } := by
  simp only [State.asserted, State.setInReset, State.setFreeCounter, State.setPending]

/-- Settles O14. -/
theorem resetHoldsEveryBlock : Obligations.ResetHoldsEveryBlock := by
  refine ⟨fun s => ?assert, fun s anc div => ⟨fun held => ?release, fun running => ?strap⟩,
    fun s c held wf on off => exec_of_inReset held wf on off⟩
  case assert => exact congrArg Host.Outcome.next s.asserted_eq
  case release =>
    rw [← s.released_eq anc div]
    exact congrArg Host.Outcome.next (if_pos held)
  case strap => exact congrArg Host.Outcome.next (if_neg (by simp [running]))

/-- Settles O10. -/
theorem resetState : Obligations.ResetState := by
  refine ⟨⟨fun p => ?ports, fun e => ?engines, fun i => ?banks, ?fields⟩, by decide⟩
  case ports => rcases p with _ | _ | _ | _ <;> exact ⟨rfl, rfl, rfl, rfl⟩
  case engines =>
    refine ⟨?_, ?_, ?_, fun w => ?_⟩
    · cases e <;> rfl
    · cases e <;> rfl
    · cases e <;> rfl
    · have windows : (State.reset.eng e).windows = eightOf Window.reset := by cases e <;> rfl
      rw [State.window, windows]
      match w with
      | 0 | 1 | 2 | 3 | 4 | 5 | 6 | 7 => rfl
  case banks =>
    match i with
    | 0 | 1 | 2 | 3 | 4 | 5 | 6 | 7 => exact ⟨rfl, rfl⟩
  case fields => repeat' constructor

end Sys2Proof.Machine

/-! The words with their fields (12.1 to 12.4): each word is a concatenation of its fields, read back at its bits. -/

namespace Sys2Proof.Machine

/-! ### The places of the fields, whatever stands in them -/

section
variable {n : Nat} (high : BitVec n)

theorem commandFields_of_parts (window : BitVec 3) (port : BitVec 2) (code : BitVec 6) :
    (high ++ window ++ port ++ code).extractLsb' 8 3 = window ∧
      (high ++ window ++ port ++ code).extractLsb' 11 n = high := by
  constructor <;> simp [BitVec.extractLsb'_append_eq_of_le, BitVec.extractLsb'_append_eq_of_add_le]

theorem resultFields_of_parts (detail : BitVec 4) (outcome code : BitVec 8) :
    (high ++ detail ++ outcome ++ code).extractLsb' 0 8 = code ∧
      (high ++ detail ++ outcome ++ code).extractLsb' 8 8 = outcome ∧
      (high ++ detail ++ outcome ++ code).extractLsb' 16 4 = detail ∧
      (high ++ detail ++ outcome ++ code).extractLsb' 20 n = high := by
  refine ⟨?_, ?_, ?_, ?_⟩ <;>
    simp [BitVec.extractLsb'_append_eq_of_le, BitVec.extractLsb'_append_eq_of_add_le]

theorem recordFields_of_parts (repeats : BitVec 8) (beats : BitVec 4) (spare : BitVec 1) (access window : BitVec 3)
    (physical selector hasWindow : Bool) (port : BitVec 2) (kind : BitVec 4) :
    let w :=
      high ++ repeats ++ beats ++ spare ++ access ++ window ++ BitVec.ofBool physical ++ BitVec.ofBool selector ++
      BitVec.ofBool hasWindow ++ port ++ kind
    w.extractLsb' 0 4 = kind ∧ w.extractLsb' 4 2 = port ∧ w.getLsbD 6 = hasWindow ∧ w.getLsbD 7 = selector ∧
      w.getLsbD 8 = physical ∧ w.extractLsb' 9 3 = window ∧ w.extractLsb' 12 3 = access ∧ w.extractLsb' 15 1 = spare ∧
      w.extractLsb' 16 4 = beats ∧ w.extractLsb' 20 8 = repeats ∧ w.extractLsb' 28 n = high := by
  refine ⟨?_, ?_, getLsbD_of_extractLsb' ?_, getLsbD_of_extractLsb' ?_, getLsbD_of_extractLsb' ?_, ?_, ?_, ?_, ?_, ?_,
    ?_⟩ <;>
    simp [BitVec.extractLsb'_append_eq_of_le, BitVec.extractLsb'_append_eq_of_add_le]

theorem recordTimes_of_parts (selector : BitVec 8) (time : BitVec 16) :
    (high ++ selector ++ time).extractLsb' 0 16 = time ∧ (high ++ selector ++ time).extractLsb' 16 8 = selector ∧
      (high ++ selector ++ time).extractLsb' 24 n = high := by
  refine ⟨?_, ?_, ?_⟩ <;>
    simp [BitVec.extractLsb'_append_eq_of_le, BitVec.extractLsb'_append_eq_of_add_le]

end

/-! ### The words -/

theorem windowField_commandWordOf (code : BitVec 6) (p : Port) (w : Index8) (arg : Arg) :
    windowOf (windowField (commandWordOf code p w arg)) = w := by
  have field : windowField (commandWordOf code p w arg) = BitVec.ofNat 3 w.val :=
    (commandFields_of_parts arg (BitVec.ofNat 3 w.val) (portCode p) code).1
  rw [field]
  match w with
  | 0 | 1 | 2 | 3 | 4 | 5 | 6 | 7 => rfl

theorem argField_commandWordOf (code : BitVec 6) (p : Port) (w : Index8) (arg : Arg) :
    argField (commandWordOf code p w arg) = arg :=
  (commandFields_of_parts arg (BitVec.ofNat 3 w.val) (portCode p) code).2

theorem resultWord_fields (c : BitVec 8) (o : CommandOutcome) (detail : Fin 12) :
    (resultWord c o detail.val).extractLsb' 0 8 = c ∧ (resultWord c o detail.val).extractLsb' 8 8 = outcomeCode o ∧
      ((resultWord c o detail.val).extractLsb' 16 4).toNat = detail.val ∧
      (resultWord c o detail.val).extractLsb' 20 12 = 0 := by
  obtain ⟨code, outcome, shown, top⟩ := resultFields_of_parts 0#12 (BitVec.ofNat 4 detail.val) (outcomeCode o) c
  refine ⟨code, outcome, ?_, top⟩
  rw [show (resultWord c o detail.val).extractLsb' 16 4 = _ from shown]
  simp
  omega

theorem recordWord0_fields (r : FaultRecord) (some_beats : 1 ≤ r.beats) (one_burst : r.beats ≤ 16) :
    (recordWord0 r).extractLsb' 0 4 = faultKindCode r.kind ∧ (recordWord0 r).extractLsb' 4 2 = portCode r.port ∧
      (recordWord0 r).getLsbD 6 = r.window.isSome ∧ (recordWord0 r).getLsbD 7 = r.selector.isSome ∧
      (recordWord0 r).getLsbD 8 = r.physical.isSome ∧
      ((recordWord0 r).extractLsb' 9 3).toNat = (r.window.elim 0 fun x => x.val) ∧
      (recordWord0 r).extractLsb' 12 3 = accessCode r.access ∧ (recordWord0 r).getLsbD 15 = false ∧
      ((recordWord0 r).extractLsb' 16 4).toNat + 1 = r.beats ∧ (recordWord0 r).extractLsb' 20 8 = r.repeats ∧
      (recordWord0 r).extractLsb' 28 4 = 0 := by
  obtain ⟨kind, port, window, selector, physical, index, access, spare, beats, repeats, top⟩ :=
    recordFields_of_parts 0#4 r.repeats (BitVec.ofNat 4 (r.beats - 1)) 0#1 (accessCode r.access)
      (r.window.elim 0#3 fun w => BitVec.ofNat 3 w.val) r.physical.isSome r.selector.isSome r.window.isSome
      (portCode r.port) (faultKindCode r.kind)
  refine ⟨kind, port, window, selector, physical, ?_, access, getLsbD_of_extractLsb' spare, ?_, repeats, top⟩
  · rw [show (recordWord0 r).extractLsb' 9 3 = _ from index]
    cases r.window with
    | none => rfl
    | some w => simp
  · rw [show (recordWord0 r).extractLsb' 16 4 = _ from beats]
    simp
    omega

theorem recordWord1_fields (r : FaultRecord) :
    (recordWord1 r).extractLsb' 0 16 = r.time ∧ (recordWord1 r).extractLsb' 16 8 = r.selector.getD 0 ∧
      (recordWord1 r).extractLsb' 24 8 = 0 := recordTimes_of_parts 0#8 (r.selector.getD 0) r.time

/-- A covered COMMAND word is read as the command of its code, with the fields that command uses (12.2, R158). -/
theorem commandOf_commandWordOf (code : BitVec 6) (p : Port) (w : Index8) (arg : Arg) :
    commandOf 15 (commandWordOf code p w arg) = match code.toNat with
      | 0 => .ignored
      | 1 => .start
      | 2 => .stop
      | 3 => .loadWindow p w arg
      | 4 => .clearWindow p w
      | 5 => .rotate p w arg
      | 6 => .invalidate arg
      | 7 => .invalidateAll
      | 8 => .releasePort p
      | 9 => .configurePort p
      | 10 => .reloadMap
      | 11 => .drain
      | _ => .unknown code := by
  simp only [commandOf, codeField_commandWordOf, portField_commandWordOf, portOfCode_portCode,
    windowField_commandWordOf, argField_commandWordOf, ne_eq, not_true_eq_false, if_false]
    <;> rfl

theorem producerWord_fields (n : Nat) :
    (n < 1024 → ((producerWord n).extractLsb' 0 10).toNat = n) ∧ (producerWord n).extractLsb' 10 22 = 0 := by
  constructor
  · intro small
    have index : (producerWord n).extractLsb' 0 10 = BitVec.ofNat 10 n := BitVec.extractLsb'_append_eq_right
    rw [index]
    simpa using small
  · exact BitVec.extractLsb'_append_eq_left

/-- Settles O31: each word is read back part by part. -/
theorem wordsShowTheirFields : Obligations.WordsShowTheirFields := by
  refine ⟨fun code p w arg c o detail r s => ⟨?command, resultWord_fields c o detail, fun low high => ?record,
      s.statusWord_fields⟩, rfl, rfl, rfl, rfl, rfl, rfl, rfl, fun code p w arg l v => ⟨?commands, fun big => ?unknown,
      fun uncovered => if_pos uncovered⟩, fun n w => ?words, fun ws length => ?configuration, fun ws i => ?ranges,
      fun w0 w1 w2 w3 => ⟨rfl, rfl, rfl⟩⟩
  case command =>
    refine ⟨codeField_commandWordOf code p w arg, ?_, windowField_commandWordOf code p w arg,
      argField_commandWordOf code p w arg⟩
    rw [portField_commandWordOf, portOfCode_portCode]
  case record =>
    obtain ⟨kind, port, window, selector, physical, index, access, spare, beats, repeats, top⟩ :=
      recordWord0_fields r low high
    obtain ⟨time, named, rest⟩ := recordWord1_fields r
    exact ⟨kind, port, window, selector, physical, index, access, spare, beats, repeats, top, time, named, rest, rfl⟩
  case commands => simp only [List.map_cons, List.map_nil, commandOf_commandWordOf]; rfl
  case unknown =>
    refine (commandOf_commandWordOf code p w arg).trans ?_
    split <;> first | rfl | omega
  case words => exact ⟨(producerWord_fields n).1, (producerWord_fields n).2, rfl, rfl, rfl⟩
  case configuration =>
    refine ⟨rfl, rfl, rfl, rfl, rfl, rfl, ?_⟩
    exact List.take_of_length_le (by simp [length])
  case ranges => exact Eight.get_build _ i

end Sys2Proof.Machine

/-! The end of an event that has changed one Port Unit, and with it acceptance (R1, R2, R4) and the admissions that
refuse or hold a request (R6, R8, R9). -/

namespace Sys2Proof.Machine

/-! ### Updates of a list -/

theorem updateFirst_all {α : Type} {p : α → Bool} {f : α → α} {g : α → Bool} (kept : ∀ a, p a = true → g (f a) = g a)
    (l : List α) : (updateFirst p f l).all g = l.all g := by
  induction l with
  | nil => rfl
  | cons a as ih =>
    unfold updateFirst
    split
    · rename_i h
      simp [kept a h]
    · simp [ih]

/-! ### One Port Unit changed -/

/-- A Port Unit with no entry ADMITTED or ISSUED (R165). -/
def PortUnit.idle (u : PortUnit) : Bool := u.queue.all fun e => !e.isAdmitted && !e.isIssued

theorem QEntry.phase_of_isWaiting {e : QEntry} (waiting : e.isWaiting = true) : e.phase = .waiting := by
  unfold QEntry.isWaiting at waiting
  split at waiting
  · assumption
  · cases waiting
  · cases waiting
  · cases waiting

theorem QEntry.not_isAdmitted_of_isWaiting {e : QEntry} (waiting : e.isWaiting = true) : e.isAdmitted = false := by
  simp [QEntry.isAdmitted, QEntry.phase_of_isWaiting waiting]

theorem QEntry.not_isIssued_of_isWaiting {e : QEntry} (waiting : e.isWaiting = true) : e.isIssued = false := by
  simp [QEntry.isIssued, QEntry.phase_of_isWaiting waiting]

@[simp] theorem QEntry.isAdmitted_decide (e : QEntry) (r : Response) : (e.decide r).isAdmitted = false := rfl
@[simp] theorem QEntry.isIssued_decide (e : QEntry) (r : Response) : (e.decide r).isIssued = false := rfl
@[simp] theorem QEntry.isDecided_decide (e : QEntry) (r : Response) : (e.decide r).isDecided = true := rfl
@[simp] theorem QEntry.isWaiting_decide (e : QEntry) (r : Response) : (e.decide r).isWaiting = false := rfl

/-- A WAITING entry that is decided was neither ADMITTED nor ISSUED and does not become so. -/
theorem all_idle_decideWaiting (r : Response) (q : List QEntry) :
    (updateFirst QEntry.isWaiting (QEntry.decide r) q).all (fun e => !e.isAdmitted && !e.isIssued) =
      q.all fun e => !e.isAdmitted && !e.isIssued :=
  updateFirst_all (fun e waiting => by
    simp [QEntry.not_isAdmitted_of_isWaiting waiting, QEntry.not_isIssued_of_isWaiting waiting]) q

section
variable {s t : State} {p : Port} {u : PortUnit}

theorem State.ready_iff : s.ready = true ↔ s.inReset = false ∧ s.settled = true := by
  simp [State.ready]

/-- The event of a row that is taken between two events. -/
theorem exec_of_ready {c : Instr} {f : State → State} (ready : s.ready = true) (row : eventOf c = some f)
    (inside : presentsRequest c = false) : exec c s = .next (f s).settle := by
  rw [exec_of_event row s inside, s.event_running f (State.ready_iff.1 ready).1]

/-- A changed Port Unit of P0, or one with the same ADMITTED and ISSUED entries or none, leaves the engines idle. -/
theorem State.enginesIdle_of_set (ports : t.ports = s.ports.set p u) (idle : p = .p0 ∨ u.idle = (s.unit p).idle) :
    t.enginesIdle = s.enginesIdle := by
  rw [State.enginesIdle, State.enginesIdle, ports]
  cases p with
  | p0 => rfl
  | engine e =>
    have same : u.queue.all (fun x => !x.isAdmitted && !x.isIssued) =
        (s.unit (.engine e)).queue.all fun x => !x.isAdmitted && !x.isIssued :=
      idle.resolve_left (by simp)
    cases e <;> simp only [PerPort.set, PerEngine.set, PerEngine.toList, List.all_cons, List.all_nil, same] <;> rfl

theorem State.stopDue_of_set (ports : t.ports = s.ports.set p u) (idle : p = .p0 ∨ u.idle = (s.unit p).idle)
    (opState : t.opState = s.opState) (buffer : t.buffer = s.buffer) (staged : t.staged = s.staged)
    (ring : t.ring = s.ring) (producer : t.producer = s.producer) (consumer : t.consumer = s.consumer) :
    t.stopDue = s.stopDue :=
  State.stopDue_congr opState (State.enginesIdle_of_set ports idle) buffer staged ring producer consumer

theorem State.stop_not_due_of_set (not_due : s.stopDue = false) (ports : t.ports = s.ports.set p u)
    (idle : p = .p0 ∨ u.idle = (s.unit p).idle) (opState : t.opState = s.opState) (buffer : t.buffer = s.buffer)
    (staged : t.staged = s.staged) (ring : t.ring = s.ring) (producer : t.producer = s.producer)
    (consumer : t.consumer = s.consumer) : t.stopDue = false :=
  (State.stopDue_of_set ports idle opState buffer staged ring producer consumer).trans not_due

theorem State.stopDue_of_not_stopping (opState : s.opState ≠ .stopping) : s.stopDue = false := by
  simp [State.stopDue, opState]

theorem PortUnit.map_answer_set (settled : ∀ q, (s.unit q).settled = true) :
    (s.ports.set p u).map PortUnit.answer = s.ports.set p u.answer := by
  have answered : s.ports.map PortUnit.answer = s.ports :=
    s.ports.map_unchanged _ fun q => PortUnit.answer_of_settled _ (settled q)
  have through : (s.ports.set p u).map PortUnit.answer = (s.ports.map PortUnit.answer).set p u.answer := by
    rcases p with _ | _ | _ | _ <;> rfl
  rw [through, answered]

/-- The end of an event that has left the pin at its level and noted no change. -/
theorem State.settle_of_quiet (not_due : t.stopDue = false) (irq : t.irqAsserted = t.irqLevel)
    (unchanged : t.statusChanged = false) : t.settle = { t with ports := t.ports.map PortUnit.answer } := by
  have no_update : t.ctl ++ (if t.statusChanged && t.reporting && !t.statusWaiting then [t.statusRequest] else []) =
      t.ctl := by simp [unchanged]
  rw [t.settle_of_stop_not_due not_due, State.concluded, ← irq, no_update, ← unchanged]

/-- The same of an event that has changed one Port Unit of a state with nothing due. -/
theorem State.settle_of_set (settled : s.settled = true) (ports : t.ports = s.ports.set p u)
    (not_due : t.stopDue = false) (irq : t.irqAsserted = t.irqLevel) (unchanged : t.statusChanged = false) :
    t.settle = { t with ports := s.ports.set p u.answer } := by
  rw [State.settle_of_quiet not_due irq unchanged, ports, PortUnit.map_answer_set (s.settled_iff.1 settled).1]

end

/-- With nothing to give or to accept on that port either, the end of the event changes nothing. -/
theorem State.settle_of_settled_set {s t : State} {p : Port} {u : PortUnit} (settled : s.settled = true)
    (unit : u.settled = true) (ports : t.ports = s.ports.set p u) (not_due : t.stopDue = false)
    (irq : t.irqAsserted = t.irqLevel) (unchanged : t.statusChanged = false) : t.settle = t := by
  rw [State.settle_of_set settled ports not_due irq unchanged, PortUnit.answer_of_settled u unit, ← ports]

/-- The fetch raised under the geometry in force (R22, R61). -/
theorem State.raiseFetch_of_table {s : State} {g : TableGeometry} (e : Engine) (w : Index8) (k : Selector) (p : Purpose)
    (table : s.table = some g) : s.raiseFetch e w k p =
      { s with fetches := s.fetches ++ [⟨e, w, k, p, true⟩], ctl := s.ctl ++ [fetchRequest g k.toNat] } := by
  unfold State.raiseFetch
  split
  · rename_i h
    cases table.symm.trans h
    rfl
  · rename_i h
    cases table.symm.trans h

/-! ### Acceptance -/

theorem Request.wf_iff (r : Request) : r.wf = true ↔ 1 ≤ r.beats ∧ r.beats ≤ 16 ∧
    (r.kind = .lockRead ∨ r.kind = .unlockWrite ∨ r.kind = .unlock → r.beats = 1) ∧
    r.data.length = (if r.kind = .write ∨ r.kind = .unlockWrite then r.beats else 0) := by
  obtain ⟨kind, wordAddr, beats, data⟩ := r
  cases kind <;> simp [Request.wf, Access.isLocked, Access.isWrite, and_assoc]

/-- The address on the link is that of a word (R1). -/
theorem byteAddr_toNat (a : BitVec 30) : (byteAddr a).toNat = 4 * a.toNat := by
  have wide := BitVec.toNat_append a 0#2
  simp only [byteAddr]
  rw [wide]
  simp [Nat.shiftLeft_eq, Nat.mul_comm]

section
variable {s : State} {p : Port} {r : Request}

theorem State.present_of_room (no_link : (s.unit p).link = none) (room : (s.queueOf p).length < 4) :
    s.present p r = { s with ports := s.ports.set p { s.unit p with queue := s.queueOf p ++ [⟨r, .waiting⟩] } } := by
  simp only [State.present, no_link]
  exact if_pos room

theorem State.present_of_full (no_link : (s.unit p).link = none) (full : 4 ≤ (s.queueOf p).length) :
    s.present p r = { s with ports := s.ports.set p { s.unit p with link := some r } } := by
  simp only [State.present, no_link]
  exact if_neg (Nat.not_lt.2 full)

theorem State.present_of_link (link : (s.unit p).link ≠ none) : s.present p r = s := by
  obtain ⟨q, link⟩ := Option.ne_none_iff_exists'.1 link
  simp only [State.present, link]

/-- An entry or a link that fits leaves a Port Unit with nothing to give or to accept. -/
theorem PortUnit.settled_present {u : PortUnit} (settled : u.settled = true) (no_link : u.link = none) :
    ({ u with queue := u.queue ++ [⟨r, .waiting⟩] } : PortUnit).settled = true ∧
      (4 ≤ u.queue.length → ({ u with link := some r } : PortUnit).settled = true) := by
  simp only [PortUnit.settled, Bool.and_eq_true] at settled
  obtain ⟨undecided, -⟩ := settled
  refine ⟨?_, fun full => ?_⟩
  · cases front : u.queue with
    | nil => simp [PortUnit.settled, no_link, QEntry.isDecided]
    | cons x back =>
      rw [front] at undecided
      simpa [PortUnit.settled, no_link] using undecided
  · simp [PortUnit.settled, Config.queueDepth, undecided, full]

theorem exec_requestAccept_of_ready (ready : s.ready = true) (wf : r.wf = true) :
    exec (.requestAccept p r) s = .next (s.present p r).settle := by
  rw [exec_requestAccept, if_pos wf, s.event_running _ (State.ready_iff.1 ready).1]

/-- A request that is accepted or stands on the link is all that the event changes. -/
theorem exec_requestAccept_of_present {u : PortUnit} (ready : s.ready = true) (wf : r.wf = true)
    (present : s.present p r = { s with ports := s.ports.set p u }) (settled : u.settled = true)
    (idle : u.idle = (s.unit p).idle) :
    exec (.requestAccept p r) s = .next { s with ports := s.ports.set p u } := by
  obtain ⟨-, nothing_due⟩ := State.ready_iff.1 ready
  obtain ⟨-, not_due, irq, unchanged⟩ := s.settled_iff.1 nothing_due
  rw [exec_requestAccept_of_ready ready wf, present]
  refine congrArg Host.Outcome.next (State.settle_of_settled_set nothing_due settled rfl ?_ irq unchanged)
  exact State.stop_not_due_of_set not_due rfl (.inr idle) rfl rfl rfl rfl rfl rfl

end

/-- Settles O16. -/
theorem requestsAreAccepted : Obligations.RequestsAreAccepted := by
  refine ⟨fun r => ⟨Request.wf_iff r, byteAddr_toNat r.wordAddr⟩, fun u front back r queue undecided => ?answers,
    fun s p r ready => ⟨fun wf no_link room => ?accepted, fun wf no_link full => ?waits, fun wf link => ?second,
      fun ill => ?refused⟩⟩
  case answers =>
    intro kept
    have responded : u.responded = kept := by
      rw [PortUnit.responded, queue, splitDecided_of_front front back undecided]
    refine ⟨fun no_link => ?_, fun link full => ?_, fun link room => ?_⟩
    · rw [PortUnit.answer_of_no_link no_link, responded]
    · rw [PortUnit.answer_of_full (by rw [responded]; exact full), responded]
    · rw [PortUnit.answer_of_room link (by rw [responded]; exact room), responded]
  case accepted =>
    have settled := s.unit_settled (State.ready_iff.1 ready).2 p
    exact exec_requestAccept_of_present ready wf (State.present_of_room no_link room)
      (PortUnit.settled_present settled no_link).1 (by simp [PortUnit.idle, State.queueOf, QEntry.isAdmitted,
        QEntry.isIssued])
  case waits =>
    have settled := s.unit_settled (State.ready_iff.1 ready).2 p
    exact exec_requestAccept_of_present ready wf (State.present_of_full no_link full)
      ((PortUnit.settled_present settled no_link).2 full) rfl
  case second =>
    rw [exec_requestAccept_of_ready ready wf, State.present_of_link link,
      State.settle_of_settled (State.ready_iff.1 ready).2]
  case refused =>
    rw [exec_requestAccept, ill]
    rfl

end Sys2Proof.Machine

/-! Admissions that refuse or hold a request (R6, R8, R9, R64, R148). -/

namespace Sys2Proof.Machine

section
variable {s : State} {p : Port} {e : Engine} {x : QEntry} {r : Request}

/-! ### The request under admission -/

theorem exec_admission_of_ready (ready : s.ready = true) : exec (.admission p) s = .next (s.admitOldest p).settle :=
  exec_of_ready (f := fun t => t.admitOldest p) ready rfl rfl

theorem State.admitOldest_of_unheld (unheld : s.holdOf p = none) (oldest : oldestWaiting (s.queueOf p) = some x) :
    s.admitOldest p = s.admitRequest p x.req := by
  simp only [State.admitOldest, oldest, unheld]

theorem State.admitOldest_of_held (held : s.holdOf p ≠ none) (stands : s.holdOf p ≠ some .configureLapsed) :
    s.admitOldest p = s := by
  unfold State.admitOldest
  cases oldestWaiting (s.queueOf p) with
  | none => rfl
  | some x =>
    cases hold : s.holdOf p with
    | none => exact absurd hold held
    | some h =>
      cases h with
      | configureLapsed => exact absurd hold stands
      | loading | reloadMap | configurePort | window | bufferSpace => rfl

theorem State.admitOldest_of_none (none_waits : oldestWaiting (s.queueOf p) = none) : s.admitOldest p = s := by
  simp only [State.admitOldest, none_waits]

/-- The event of a fresh admission, of any running state. -/
theorem exec_admission_of_running (running : s.inReset = false) (unheld : s.holdOf p = none)
    (oldest : oldestWaiting (s.queueOf p) = some x) :
    exec (.admission p) s = .next (s.admitRequest p x.req).settle := by
  rw [exec_of_event (f := fun t => t.admitOldest p) rfl s rfl, s.event_running _ running,
    State.admitOldest_of_unheld unheld oldest]

theorem exec_admission_of_unheld (ready : s.ready = true) (unheld : s.holdOf p = none)
    (oldest : oldestWaiting (s.queueOf p) = some x) :
    exec (.admission p) s = .next (s.admitRequest p x.req).settle :=
  exec_admission_of_running (State.ready_iff.1 ready).1 unheld oldest

/-! ### Refusals without a fault -/

theorem PortUnit.idle_decided (u : PortUnit) (d : Response) (h : Option Hold) :
    ({ u with queue := updateFirst QEntry.isWaiting (QEntry.decide d) u.queue, hold := h } : PortUnit).idle = u.idle :=
  all_idle_decideWaiting d u.queue

/-- A refusal that reports nothing gives its response, and nothing else changes. -/
theorem State.settle_decideWaiting (settled : s.settled = true) (d : Response) :
    (s.decideWaiting p d).settle = { s with ports := s.ports.set p ((s.unit p).respond d) } := by
  obtain ⟨-, not_due, irq, unchanged⟩ := s.settled_iff.1 settled
  refine State.settle_of_set settled rfl ?_ irq unchanged
  exact State.stop_not_due_of_set not_due rfl (.inr (PortUnit.idle_decided _ d none)) rfl rfl rfl rfl rfl rfl

theorem State.admitRequest_of_refused {c : RefusalCode} (verdict : s.verdict p r = .refused c) :
    s.admitRequest p r = s.refuse p c := by
  simp only [State.admitRequest, verdict]

theorem State.refuse_of_not_quiet {c : RefusalCode} (uncounted : c ≠ .quiet) :
    s.refuse p c = s.decideWaiting p (.refused c) := by
  unfold State.refuse
  cases p with
  | p0 => rfl
  | engine e =>
    cases c with
    | quiet => exact absurd rfl uncounted
    | fault | notActive | halted | disabled | blocked | lockLost => rfl

/-- The event of an admission that refuses with a code that is not counted. -/
theorem exec_admission_of_refused {c : RefusalCode} (ready : s.ready = true) (unheld : s.holdOf p = none)
    (oldest : oldestWaiting (s.queueOf p) = some x) (verdict : s.verdict p x.req = .refused c)
      (uncounted : c ≠ .quiet) :
    exec (.admission p) s = .next { s with ports := s.ports.set p ((s.unit p).respond (.refused c)) } := by
  rw [exec_admission_of_unheld ready unheld oldest, State.admitRequest_of_refused verdict,
    State.refuse_of_not_quiet uncounted, State.settle_decideWaiting (State.ready_iff.1 ready).2]

/-- A QUIET refusal is counted (R150). -/
theorem exec_admission_of_quiet (ready : s.ready = true) (unheld : s.holdOf (.engine e) = none)
    (oldest : oldestWaiting (s.queueOf (.engine e)) = some x)
      (verdict : s.verdict (.engine e) x.req = .refused .quiet) :
    exec (.admission (.engine e)) s = .next { s with
      ports := s.ports.set (.engine e) ((s.unit (.engine e)).respond (.refused .quiet))
      engines := s.engines.set e { s.eng e with
        storm := if (s.eng e).storm = 255 then 255 else (s.eng e).storm + 1 } } := by
  obtain ⟨-, settled⟩ := State.ready_iff.1 ready
  obtain ⟨-, not_due, irq, unchanged⟩ := s.settled_iff.1 settled
  have counted : saturatingInc (s.eng e).storm = if (s.eng e).storm = 255 then 255 else (s.eng e).storm + 1 := by
    unfold saturatingInc
    split <;> simp_all
  have refused : s.refuse (.engine e) .quiet = { s.decideWaiting (.engine e) (.refused .quiet) with
      engines := s.engines.set e { s.eng e with
        storm := if (s.eng e).storm = 255 then 255 else (s.eng e).storm + 1 } } := by
    rw [← counted]
    rfl
  rw [exec_admission_of_unheld ready unheld oldest, State.admitRequest_of_refused verdict, refused]
  refine congrArg Host.Outcome.next (State.settle_of_set settled rfl ?_ irq unchanged)
  exact State.stop_not_due_of_set (p := .engine e) not_due rfl
    (.inr (PortUnit.idle_decided _ (.refused .quiet) none)) rfl rfl rfl rfl rfl rfl

/-! ### Steps 1 and 2 for an engine port -/

theorem State.verdict_engine_of_inactive (inactive : s.opState = .boot ∨ s.opState = .stopping) :
    s.verdict (.engine e) r = .refused .notActive := by
  rcases inactive with h | h <;> simp only [State.verdict, State.engineVerdict, h]

theorem State.verdict_engine_of_halted (halted : s.opState = .halted) : s.verdict (.engine e) r = .refused .halted := by
  simp only [State.verdict, State.engineVerdict, halted]

theorem State.verdict_engine_of_loading (loading : s.opState = .loading) :
    s.verdict (.engine e) r = .held .loading := by
  simp only [State.verdict, State.engineVerdict, loading]

theorem State.verdict_engine_of_disabled (active : s.opState = .active) (state : (s.eng e).state = .disabled) :
    s.verdict (.engine e) r = .refused .disabled := by
  simp only [State.verdict, State.engineVerdict, active, state]

theorem State.verdict_engine_of_blocked (active : s.opState = .active) (state : (s.eng e).state = .blocked) :
    s.verdict (.engine e) r = .refused .blocked := by
  simp only [State.verdict, State.engineVerdict, active, state]

theorem State.verdict_engine_of_quiet (active : s.opState = .active) (state : (s.eng e).state = .quiet) :
    s.verdict (.engine e) r = .refused .quiet := by
  simp only [State.verdict, State.engineVerdict, active, state]

theorem State.not_reloading_of_configuring (configuring : s.configuring e = true) : s.reloading = false := by
  simp only [State.configuring, decide_eq_true_eq] at configuring
  simp [State.reloading, configuring]

section
variable (active : s.opState = .active) (opened : (s.eng e).state = .opened)
include active opened

theorem State.verdict_engine_of_reloading (reloading : s.reloading = true) :
    s.verdict (.engine e) r = .held .reloadMap := by
  simp only [State.verdict, State.engineVerdict, active, opened, reloading, if_true]

theorem State.verdict_engine_of_configuring (configuring : s.configuring e = true) :
    s.verdict (.engine e) r = .held .configurePort := by
  simp [State.verdict, State.engineVerdict, active, opened, configuring,
    State.not_reloading_of_configuring configuring]

/-- On an OPEN port with no command hold the window decides (R7). -/
theorem State.verdict_engine_of_opened (not_reloading : s.reloading = false)
    (not_configuring : s.configuring e = false) :
    s.verdict (.engine e) r = s.windowVerdict e r := by
  simp [State.verdict, State.engineVerdict, active, opened, not_reloading, not_configuring]

end
end

/-- Settles O17: a case for each code. -/
theorem engineRequestsAreRefused : Obligations.EngineRequestsAreRefused := by
  refine ⟨fun s e x ready unheld oldest => ⟨fun inactive => ?_, fun halted => ?_⟩,
    fun s e x ready unheld oldest active => ⟨fun state => ?_, fun state => ?_, fun state => ?_⟩⟩
  · exact exec_admission_of_refused ready unheld oldest (State.verdict_engine_of_inactive inactive) (by simp)
  · exact exec_admission_of_refused ready unheld oldest (State.verdict_engine_of_halted halted) (by simp)
  · exact exec_admission_of_refused ready unheld oldest (State.verdict_engine_of_disabled active state) (by simp)
  · exact exec_admission_of_refused ready unheld oldest (State.verdict_engine_of_blocked active state) (by simp)
  · exact exec_admission_of_quiet ready unheld oldest (State.verdict_engine_of_quiet active state)

/-! ### Holds -/

section
variable {s : State} {p : Port} {e : Engine} {x : QEntry} {r : Request} {h : Hold}

theorem State.reloading_iff : s.reloading = true ↔ ∃ a, s.command = some (.reloadMap a) := by
  unfold State.reloading
  split
  · rename_i a command
    simp [command]
  all_goals simp_all

theorem State.configuring_iff : s.configuring e = true ↔ s.command = some (.configurePort (.engine e)) := by
  simp [State.configuring]

/-- A hold placed between two events leaves nothing due. -/
theorem State.settled_setHold (settled : s.settled = true) (h : Option Hold) : (s.setHold p h).settled = true := by
  obtain ⟨ports, not_due, irq, unchanged⟩ := s.settled_iff.1 settled
  refine State.settled_iff _ |>.2 ⟨fun q => ?_, ?_, irq, unchanged⟩
  · by_cases same : q = p
    · subst same
      rw [State.setHold_eq, State.unit, PerPort.get_set_same]
      exact ports q
    · rw [State.setHold_eq, State.unit, PerPort.get_set_other _ _ _ _ same]
      exact ports q
  · exact State.stop_not_due_of_set (p := p) (u := { s.unit p with hold := h }) not_due rfl
      (.inr rfl) rfl rfl rfl rfl rfl rfl

theorem State.admitRequest_of_held (verdict : s.verdict p r = .held h) : s.admitRequest p r = s.setHold p (some h) := by
  simp only [State.admitRequest, verdict]

/-- The event of an admission that holds the request. -/
theorem exec_admission_of_verdict_held (ready : s.ready = true) (unheld : s.holdOf p = none)
    (oldest : oldestWaiting (s.queueOf p) = some x) (verdict : s.verdict p x.req = .held h) :
    exec (.admission p) s = .next { s with ports := s.ports.set p { s.unit p with hold := some h } } := by
  rw [exec_admission_of_unheld ready unheld oldest, State.admitRequest_of_held verdict,
    State.settle_of_settled (State.settled_setHold (State.ready_iff.1 ready).2 _), State.setHold_eq]

theorem State.windowVerdict_of_fetching (fetching : (s.window e (windowIndex r.addr)).isFetching = true) :
    s.windowVerdict e r = .held (.window (windowIndex r.addr)) := by
  unfold State.windowVerdict
  cases state : (s.window e (windowIndex r.addr)).state with
  | fetching => simp only [state]
  | empty | valid | stale => simp [Window.isFetching, state] at fetching

theorem State.windowVerdict_of_stale {k : Selector} {d : Checked}
    (stale : (s.window e (windowIndex r.addr)).state = .stale k d) :
    s.windowVerdict e r = .refetch e (windowIndex r.addr) k := by
  simp only [State.windowVerdict, stale]

/-! ### The fresh admission after a hold for CONFIGURE_PORT -/

theorem State.admitOldest_of_lapsed (lapsed : s.holdOf p = some .configureLapsed)
    (oldest : oldestWaiting (s.queueOf p) = some x) : s.admitOldest p = s.admitLapsed p x.req := by
  simp only [State.admitOldest, oldest, lapsed]

theorem State.holdOf_setHold (h : Option Hold) : (s.setHold p h).holdOf p = h := by
  rw [State.setHold_eq, State.holdOf, State.unit, PerPort.get_set_same]

theorem State.queueOf_setHold (h : Option Hold) (q : Port) : (s.setHold p h).queueOf q = s.queueOf q := by
  rw [State.setHold_eq, State.queueOf, State.unit]
  by_cases same : q = p
  · subst same
    rw [PerPort.get_set_same]
    rfl
  · rw [PerPort.get_set_other _ _ _ _ same]
    rfl

theorem State.lapseDisputed_iff : s.lapseDisputed (.engine e) = true ↔
    s.opState = .active ∧ s.configuring e = true ∧ ((s.eng e).state = .blocked ∨ (s.eng e).state = .quiet) := by
  simp [State.lapseDisputed, and_assoc]

/-- The state with a port's lapsed hold taken off and some free values used. -/
def State.unlapsed (s : State) (p : Port) (n : Nat) : State :=
  { s with ports := s.ports.set p { s.unit p with hold := none }, freeCounter := n }

theorem exec_admission_unlapsed (running : s.inReset = false) (oldest : oldestWaiting (s.queueOf p) = some x)
    (n : Nat) :
    exec (.admission p) (s.unlapsed p n) = .next ((s.unlapsed p n).admitRequest p x.req).settle := by
  have here : (s.unlapsed p n).unit p = { s.unit p with hold := none } := s.ports.get_set_same p _
  refine exec_admission_of_running running ?_ ?_
  · rw [State.holdOf, here]
  · rw [State.queueOf, here]
    exact oldest

section
variable (ready : s.ready = true) (lapsed : s.holdOf p = some .configureLapsed)
  (oldest : oldestWaiting (s.queueOf p) = some x)
include ready lapsed oldest

/-- Where the rules do not dispute it, the request is admitted afresh (R148, R6). -/
theorem exec_admission_of_lapsed (undisputed : s.lapseDisputed p = false) :
    exec (.admission p) s = exec (.admission p) (s.unlapsed p s.freeCounter) := by
  obtain ⟨running, -⟩ := State.ready_iff.1 ready
  rw [exec_admission_unlapsed running oldest, exec_admission_of_ready ready, State.admitOldest_of_lapsed lapsed oldest,
    State.admitLapsed, undisputed]
  rfl

/-- Where they do, it is held again or admitted afresh, by a free choice (notes/assumptions/31). -/
theorem exec_admission_of_disputed (disputed : s.lapseDisputed p = true) :
    exec (.admission p) s = .next { s with
      ports := s.ports.set p { s.unit p with hold := some .configurePort }, freeCounter := s.freeCounter + 1 } ∨
    exec (.admission p) s = exec (.admission p) (s.unlapsed p (s.freeCounter + 1)) := by
  obtain ⟨running, settled⟩ := State.ready_iff.1 ready
  have admits : s.admitLapsed p x.req =
      if Config.freeBit s.freeCounter
        then (s.unlapsed p (s.freeCounter + 1)).setHold p (some .configurePort)
        else (s.unlapsed p (s.freeCounter + 1)).admitRequest p x.req := by
    rw [State.admitLapsed, disputed]
    rfl
  rw [exec_admission_unlapsed running oldest, exec_admission_of_ready ready, State.admitOldest_of_lapsed lapsed oldest,
    admits]
  split
  · left
    have held : (s.unlapsed p (s.freeCounter + 1)).setHold p (some .configurePort) =
        { s.setHold p (some .configurePort) with freeCounter := s.freeCounter + 1 } := by
      simp only [State.setHold_eq, State.unlapsed, State.unit, PerPort.get_set_same, PerPort.set_set_same]
    have still : ({ s.setHold p (some .configurePort) with freeCounter := s.freeCounter + 1 } : State).settled = true :=
      State.settled_setHold (s := { s with freeCounter := s.freeCounter + 1 }) settled (some .configurePort)
    rw [held, State.settle_of_settled still]
    rfl
  · exact .inr rfl

end

/-- A request held on a STALE window starts a refetch of it (R64). -/
theorem exec_admission_of_stale {k : Selector} {g : TableGeometry} {w : Index8} (ready : s.ready = true)
    (unheld : s.holdOf (.engine e) = none) (oldest : oldestWaiting (s.queueOf (.engine e)) = some x)
    (verdict : s.verdict (.engine e) x.req = .refetch e w k) (table : s.table = some g) :
    exec (.admission (.engine e)) s = .next { s with
      ports := s.ports.set (.engine e) { s.unit (.engine e) with hold := some (.window w) }
      engines := s.engines.set e { s.eng e with
        windows := (s.eng e).windows.set w { s.window e w with state := .fetching .refetch k false } }
      fetches := s.fetches ++ [⟨e, w, k, .refetch, true⟩]
      ctl := s.ctl ++ [fetchRequest g k.toNat] } := by
  obtain ⟨-, settled⟩ := State.ready_iff.1 ready
  obtain ⟨-, not_due, irq, unchanged⟩ := s.settled_iff.1 settled
  have starts : s.admitRequest (.engine e) x.req = { s with
      ports := s.ports.set (.engine e) { s.unit (.engine e) with hold := some (.window w) }
      engines := s.engines.set e { s.eng e with
        windows := (s.eng e).windows.set w { s.window e w with state := .fetching .refetch k false } }
      fetches := s.fetches ++ [⟨e, w, k, .refetch, true⟩]
      ctl := s.ctl ++ [fetchRequest g k.toNat] } := by
    simp only [State.admitRequest, verdict, State.startRefetch]
    rw [State.raiseFetch_of_table (g := g) e w k .refetch (by exact table)]
    rfl
  rw [exec_admission_of_unheld ready unheld oldest, starts]
  have unit : ({ s.unit (.engine e) with hold := some (.window w) } : PortUnit).settled = true :=
    s.unit_settled settled (.engine e)
  refine congrArg Host.Outcome.next (State.settle_of_settled_set (p := .engine e) settled unit rfl ?_ irq unchanged)
  exact State.stop_not_due_of_set (p := .engine e) not_due rfl (.inr rfl) rfl rfl rfl rfl rfl rfl

end

/-- Settles O18: a case for each hold, and for the request of a STALE window. -/
theorem admissionIsHeld : Obligations.AdmissionIsHeld := by
  refine ⟨fun s e x ready lapsed oldest => ⟨fun active configuring closed => ?disputed, fun undisputed => ?fresh⟩,
    fun s e => ⟨State.reloading_iff, State.configuring_iff⟩,
    fun s p e x ready => ⟨?nothing, fun unheld oldest => ⟨fun loading => ?loading, fun active opened =>
      ⟨fun reloading => ?reloading, fun configuring => ?configuring, fun idle unconfigured fetching => ?fetching⟩⟩,
      fun unheld oldest active reloading => ?supervisor⟩,
    fun s e x k d g ready unheld oldest active opened idle unconfigured table stale => ?stale⟩
  case disputed =>
    exact exec_admission_of_disputed ready lapsed oldest (State.lapseDisputed_iff.2 ⟨active, configuring, closed⟩)
  case fresh =>
    refine exec_admission_of_lapsed ready lapsed oldest ?_
    rw [← Bool.not_eq_true, State.lapseDisputed_iff]
    rintro ⟨active, configuring, closed⟩
    rcases undisputed with inactive | unconfigured | not_closed
    · exact inactive active
    · simp [unconfigured] at configuring
    · exact not_closed closed
  case nothing =>
    rintro (⟨held, stands⟩ | none_waits)
    · rw [exec_admission_of_ready ready, State.admitOldest_of_held held stands,
        State.settle_of_settled (State.ready_iff.1 ready).2]
    · rw [exec_admission_of_ready ready, State.admitOldest_of_none none_waits,
        State.settle_of_settled (State.ready_iff.1 ready).2]
  case loading =>
    exact exec_admission_of_verdict_held ready unheld oldest (State.verdict_engine_of_loading loading)
  case reloading =>
    exact exec_admission_of_verdict_held ready unheld oldest (State.verdict_engine_of_reloading active opened reloading)
  case configuring =>
    exact exec_admission_of_verdict_held ready unheld oldest
      (State.verdict_engine_of_configuring active opened configuring)
  case fetching =>
    exact exec_admission_of_verdict_held ready unheld oldest
      ((State.verdict_engine_of_opened active opened idle unconfigured).trans
        (State.windowVerdict_of_fetching fetching))
  case supervisor =>
    refine exec_admission_of_verdict_held ready unheld oldest ?_
    simp [State.verdict, State.supervisorVerdict, active, reloading]
  case stale =>
    exact exec_admission_of_stale ready unheld oldest
      ((State.verdict_engine_of_opened active opened idle unconfigured).trans
        (State.windowVerdict_of_stale stale)) table

end Sys2Proof.Machine

/-! Steps 4 and 5 of admission: the paths of P0 (R10, R11, R81, R83), and for an engine port the checks in their order
and what passes them (R46 to R54, R78 to R82). -/

namespace Sys2Proof.Machine

/-! ### The zone and the bytes of a burst -/

theorem ByteRange.holds_iff (z : ByteRange) (a : Word) : z.holds a = true ↔ z.1 ≤ a.toNat ∧ a.toNat < z.1 + z.2 := by
  simp [ByteRange.holds]

theorem anchorOf_toNat (anc : BitVec 12) : (anchorOf anc).toNat = anc.toNat * 2 ^ 20 := calc
  (anc ++ 0#20).toNat = anc.toNat <<< 20 ||| 0 := BitVec.toNat_append _ _
  _ = anc.toNat * 2 ^ 20 := by rw [Nat.or_zero, Nat.shiftLeft_eq]

section
variable (s : State)

theorem State.zone_of_geometry {t : TableGeometry} {g : RingGeometry} (table : s.table = some t)
    (ring : s.ring = some g) :
    s.zone = [controlBlockRange s.anc, t.range, g.range] := by
  simp only [State.zone, table, ring]

theorem State.zone_of_no_geometry (missing : s.table = none ∨ s.ring = none) : s.zone = [] := by
  unfold State.zone
  split
  · rename_i t g table ring
    rcases missing with missing | missing <;> simp_all
  · rfl

/-- The zone is the control block, the table and the ring, where both geometries are in force (R78). -/
theorem State.inZone_iff (a : Word) : s.inZone a = true ↔ ∃ t g, s.table = some t ∧ s.ring = some g ∧
    ((s.anc.toNat * 2 ^ 20 ≤ a.toNat ∧ a.toNat < s.anc.toNat * 2 ^ 20 + 256) ∨
      (t.base.toNat ≤ a.toNat ∧ a.toNat < t.base.toNat + 16 * t.count) ∨
      (g.base.toNat ≤ a.toNat ∧ a.toNat < g.base.toNat + 16 * g.size)) := by
  have byRange (t : TableGeometry) (g : RingGeometry) (table : s.table = some t) (ring : s.ring = some g) :
      s.inZone a = true ↔ (s.anc.toNat * 2 ^ 20 ≤ a.toNat ∧ a.toNat < s.anc.toNat * 2 ^ 20 + 256) ∨
        (t.base.toNat ≤ a.toNat ∧ a.toNat < t.base.toNat + 16 * t.count) ∨
        (g.base.toNat ≤ a.toNat ∧ a.toNat < g.base.toNat + 16 * g.size) := by
    rw [State.inZone, s.zone_of_geometry table ring]
    simp only [List.any_cons, List.any_nil, Bool.or_false, Bool.or_eq_true, ByteRange.holds_iff, controlBlockRange,
      anchorOf_toNat, TableGeometry.range, RingGeometry.range, Config.controlBlockBytes]
  constructor
  · intro inside
    cases table : s.table with
    | none => simp [State.inZone, s.zone_of_no_geometry (.inl table)] at inside
    | some t =>
      cases ring : s.ring with
      | none => simp [State.inZone, s.zone_of_no_geometry (.inr ring)] at inside
      | some g => exact ⟨t, g, rfl, rfl, (byRange t g table ring).1 inside⟩
  · rintro ⟨t, g, table, ring, inside⟩
    exact (byRange t g table ring).2 inside

end

/-- Settles O19. -/
theorem supervisorPaths : Obligations.SupervisorPaths := by
  refine ⟨fun s a n => ⟨s.inZone_iff a, rfl⟩, fun s r => ⟨fun unchecked => ?unchecked, fun checked idle =>
    ⟨fun faulty => ?faulty, fun clean => ?clean⟩⟩⟩
  case unchecked =>
    rcases unchecked with state | state | state <;> simp only [State.verdict, State.supervisorVerdict, state] <;> rfl
  all_goals
    have path : s.verdict .p0 r = s.checkedSupervisor r := by
      rcases checked with state | state <;> simp [State.verdict, State.supervisorVerdict, state, idle]
    rw [path, State.checkedSupervisor]
  case faulty => exact if_pos (by simpa [Piece.bytes, supervisorPiece] using faulty)
  case clean =>
    refine if_neg ?_
    simpa [Piece.bytes, supervisorPiece, Classical.or_iff_not_imp_left] using clean

/-! ### The window, the offset and the parts of a region -/

theorem windowIndex_val (a : Word) : (windowIndex a).val = a.toNat / 2 ^ 29 := by
  have top : (windowIndex a).val = (a.toNat >>> 29) % 8 := rfl
  rw [top, Nat.shiftRight_eq_div_pow]
  omega

theorem windowOffset_eq (a : Word) : windowOffset a = a.toNat % 2 ^ 29 := by
  simp [windowOffset]

theorem crosses_iff (o n b : Nat) : crosses o n b = true ↔ ∃ x y, o ≤ x ∧ x < b ∧ b ≤ y ∧ y < o + n := by
  simp only [crosses, Bool.and_eq_true, decide_eq_true_eq]
  exact ⟨fun ⟨low, high⟩ => ⟨o, b, Nat.le_refl o, low, Nat.le_refl b, high⟩,
    fun ⟨x, y, hox, hxb, hby, hyn⟩ => ⟨by omega, by omega⟩⟩

theorem Checked.splits_of_linear {d : Checked} (linear : d.kind = .linear) (o n : Nat) : d.splits o n = false := by
  simp only [Checked.splits, linear]

theorem Checked.splits_of_rotating {d : Checked} {head tail m : Nat} {initial : Arg}
    (rotating : d.kind = .rotating head tail m initial) (o n : Nat) :
    d.splits o n = (crosses o n (head * 256) || crosses o n ((head + m) * 256)) := by
  simp only [Checked.splits, rotating]

/-! ### The checks of an engine request in their order -/

section
variable {s : State} {e : Engine} {r : Request} {k : Selector} {d : Checked} {q : Piece}

theorem Checked.fault_of_rights {kind : Access} {o beats : Nat} (ungranted : d.grants kind = false) :
    d.fault kind o beats = some .rights := if_pos ungranted

section
variable {kind : Access} {o beats : Nat} (granted : d.grants kind = true)
include granted

theorem Checked.fault_of_limit (outside : d.size * 256 ≤ o + 4 * beats - 1) :
    d.fault kind o beats = some .limit := by
  simp [Checked.fault, granted, outside]

theorem Checked.fault_of_split (inside : o + 4 * beats - 1 < d.size * 256) (splits : d.splits o (4 * beats) = true) :
    d.fault kind o beats = some .split := by
  simp [Checked.fault, granted, Nat.not_le.2 inside, splits]

theorem Checked.fault_of_none (inside : o + 4 * beats - 1 < d.size * 256) (whole : d.splits o (4 * beats) = false) :
    d.fault kind o beats = none := by
  simp [Checked.fault, granted, Nat.not_le.2 inside, whole]

end

theorem Checked.fault_eq_none_iff {kind : Access} {o beats : Nat} : d.fault kind o beats = none ↔
    d.grants kind = true ∧ o + 4 * beats - 1 < d.size * 256 ∧ d.splits o (4 * beats) = false := by
  unfold Checked.fault
  split
  · simp_all
  · split
    · rename_i outside
      simp [Nat.not_lt.2 outside]
    · split <;> simp_all

theorem State.windowVerdict_of_empty (empty : (s.window e (windowIndex r.addr)).state = .empty) :
    s.windowVerdict e r = .faulted .noWindow (some (windowIndex r.addr)) none none := by
  simp only [State.windowVerdict, empty]

theorem State.windowVerdict_of_fault {f : FaultKind} (valid : (s.window e (windowIndex r.addr)).state = .valid k d)
    (fault : d.fault r.kind (windowOffset r.addr) r.beats = some f) :
    s.windowVerdict e r = .faulted f (some (windowIndex r.addr)) (some k) none := by
  simp only [State.windowVerdict, valid, fault]

/-- The pieces of a request through a window, under its rotation (R52 to R54). -/
def State.piecesThrough (s : State) (e : Engine) (r : Request) (d : Checked) : Piece × Option Piece :=
  d.translate (s.window e (windowIndex r.addr)).rotation.toNat (windowOffset r.addr) r.beats r.data

theorem State.windowVerdict_of_no_fault (valid : (s.window e (windowIndex r.addr)).state = .valid k d)
    (clean : d.fault r.kind (windowOffset r.addr) r.beats = none) :
    s.windowVerdict e r = s.classify r.kind ⟨windowIndex r.addr, k⟩ (s.piecesThrough e r d).1
      (s.piecesThrough e r d).2 := by
  simp only [State.windowVerdict, valid, clean]
  rfl

section
variable {kind : Access} {v : Via} {a : Piece} {b : Option Piece}

theorem State.classify_of_zone (zone : (piecesOf a b).find? s.reachesZone = some q) :
    s.classify kind v a b = .faulted .zone (some v.window) (some v.selector) (some q.addr) := by
  simp only [State.classify, zone]

theorem State.classify_of_hole (no_zone : (piecesOf a b).any s.reachesZone = false)
    (hole : (piecesOf a b).find? s.reachesHole = some q) :
    s.classify kind v a b = .faulted .hole (some v.window) (some v.selector) (some q.addr) := by
  have none_found : (piecesOf a b).find? s.reachesZone = none := by simpa using no_zone
  simp only [State.classify, none_found, hole]

theorem State.classify_of_clean (no_zone : (piecesOf a b).any s.reachesZone = false)
    (no_hole : (piecesOf a b).any s.reachesHole = false) :
    s.classify kind v a b = .passed a b (some v) (!kind.isLocked && (piecesOf a b).all s.allPosted) := by
  have zone_free : (piecesOf a b).find? s.reachesZone = none := by simpa using no_zone
  have hole_free : (piecesOf a b).find? s.reachesHole = none := by simpa using no_hole
  simp only [State.classify, zone_free, hole_free]

/-- Step 5 passes a request only with the pieces it was given, and no byte of them in the zone or in a HOLE. -/
theorem State.classify_passed {a' : Piece} {b' : Option Piece} {v' : Option Via} {posted : Bool}
    (passed : s.classify kind v a b = .passed a' b' v' posted) :
    (piecesOf a b).any s.reachesZone = false ∧ (piecesOf a b).any s.reachesHole = false ∧ a' = a ∧ b' = b ∧
      v' = some v ∧ posted = (!kind.isLocked && (piecesOf a b).all s.allPosted) := by
  unfold State.classify at passed
  split at passed
  · cases passed
  · rename_i zone_free
    split at passed
    · cases passed
    · rename_i hole_free
      cases passed
      exact ⟨by simpa using zone_free, by simpa using hole_free, rfl, rfl, rfl, rfl⟩

end

theorem State.reachesZone_iff : s.reachesZone q = true ↔ ∃ x ∈ q.bytes, s.inZone x = true := by
  simp [State.reachesZone]

theorem State.reachesHole_iff : s.reachesHole q = true ↔ ∃ x ∈ q.bytes, s.map.attrOf x = .hole := by
  simp [State.reachesHole]

end

/-- Settles O20: a case for each fault, in the order of the checks. -/
theorem engineFaultsInOrder : Obligations.EngineFaultsInOrder := by
  refine ⟨fun a => ⟨windowIndex_val a, windowOffset_eq a⟩, fun d o n head tail m initial => ⟨fun linear => ?linear,
    fun rotating => ?rotating⟩, fun s q => ⟨rfl, State.reachesZone_iff, State.reachesHole_iff⟩,
    fun d => ⟨rfl, rfl, ?grants⟩, fun s e r k d q active opened idle unconfigured => ?checks⟩
  case linear => exact Checked.splits_of_linear linear o n
  case rotating =>
    rw [Checked.splits_of_rotating rotating, Bool.or_eq_true, crosses_iff, crosses_iff]
    simp
  case grants => simp [Checked.grants]
  case checks =>
    rw [State.verdict_engine_of_opened active opened idle unconfigured]
    refine ⟨State.windowVerdict_of_empty, fun valid => ⟨fun ungranted => ?_, fun granted => ⟨fun outside => ?_,
      fun inside => ⟨fun splits => ?_, fun whole => ⟨fun zone => ?_, fun no_zone hole => ?_⟩⟩⟩⟩⟩
    · exact State.windowVerdict_of_fault valid (Checked.fault_of_rights ungranted)
    · exact State.windowVerdict_of_fault valid (Checked.fault_of_limit granted outside)
    · exact State.windowVerdict_of_fault valid (Checked.fault_of_split granted inside splits)
    · rw [State.windowVerdict_of_no_fault valid (Checked.fault_of_none granted inside whole)]
      exact State.classify_of_zone zone
    · rw [State.windowVerdict_of_no_fault valid (Checked.fault_of_none granted inside whole)]
      exact State.classify_of_hole no_zone hole

/-! ### What passes -/

section
variable {s : State} {e : Engine} {r : Request} {a : Piece} {b : Option Piece} {v : Option Via} {posted : Bool}

/-- The verdict of an engine port passes only in ACTIVE on an OPEN port with no command hold. -/
theorem State.engineVerdict_passed (passed : s.engineVerdict e r = .passed a b v posted) :
    s.opState = .active ∧ (s.eng e).state = .opened ∧ s.reloading = false ∧ s.configuring e = false ∧
      s.windowVerdict e r = .passed a b v posted := by
  unfold State.engineVerdict at passed
  split at passed <;> first | cases passed | skip
  rename_i active
  split at passed <;> first | cases passed | skip
  rename_i opened
  split at passed <;> first | cases passed | skip
  rename_i idle
  split at passed <;> first | cases passed | skip
  rename_i unconfigured
  exact ⟨active, opened, by simpa using idle, by simpa using unconfigured, passed⟩

theorem State.windowVerdict_passed (passed : s.windowVerdict e r = .passed a b v posted) :
    ∃ k d, (s.window e (windowIndex r.addr)).state = .valid k d ∧
      d.fault r.kind (windowOffset r.addr) r.beats = none ∧
      s.classify r.kind ⟨windowIndex r.addr, k⟩ (s.piecesThrough e r d).1 (s.piecesThrough e r d).2 =
        .passed a b v posted := by
  cases state : (s.window e (windowIndex r.addr)).state with
  | empty => simp only [State.windowVerdict, state, reduceCtorEq] at passed
  | fetching => simp only [State.windowVerdict, state, reduceCtorEq] at passed
  | stale => simp only [State.windowVerdict, state, reduceCtorEq] at passed
  | valid k d =>
    cases fault : d.fault r.kind (windowOffset r.addr) r.beats with
    | some f =>
      rw [State.windowVerdict_of_fault state fault] at passed
      cases passed
    | none =>
      rw [State.windowVerdict_of_no_fault state fault] at passed
      exact ⟨k, d, rfl, fault, passed⟩

/-- The pieces keep off the zone and the HOLEs byte by byte (R80, R81). -/
theorem State.pieces_clean_iff (ps : List Piece) : (ps.any s.reachesZone = false ∧ ps.any s.reachesHole = false) ↔
    ∀ q ∈ ps, ∀ x ∈ q.bytes, s.inZone x = false ∧ s.map.attrOf x ≠ .hole := by
  simp only [List.any_eq_false, State.reachesZone_iff, State.reachesHole_iff, not_exists, not_and, Bool.not_eq_true]
  exact ⟨fun ⟨zone, hole⟩ q hq x hx => ⟨zone q hq x hx, hole q hq x hx⟩,
    fun clean => ⟨fun q hq x hx => (clean q hq x hx).1, fun q hq x hx => (clean q hq x hx).2⟩⟩

theorem State.posted_iff (kind : Access) (ps : List Piece) : (!kind.isLocked && ps.all s.allPosted) = true ↔
    kind.isLocked = false ∧ ∀ q ∈ ps, ∀ x ∈ q.bytes, s.map.attrOf x = .posted := by
  simp [State.allPosted]

end

/-- Settles O21: the checks passed are those of the verdict taken backwards. -/
theorem enginePassesOnlyAllowedBytes : Obligations.EnginePassesOnlyAllowedBytes := by
  intro s e r a b v posted
  constructor
  · intro passed
    obtain ⟨active, opened, idle, unconfigured, window⟩ := State.engineVerdict_passed passed
    obtain ⟨k, d, valid, clean, classified⟩ := State.windowVerdict_passed window
    obtain ⟨granted, inside, whole⟩ := Checked.fault_eq_none_iff.1 clean
    obtain ⟨no_zone, no_hole, rfl, rfl, rfl, rfl⟩ := State.classify_passed classified
    exact ⟨active, opened, idle, unconfigured, k, d, valid, rfl, granted, inside, whole, rfl,
      (State.pieces_clean_iff _).1 ⟨no_zone, no_hole⟩, State.posted_iff r.kind _⟩
  · rintro ⟨active, opened, idle, unconfigured, k, d, valid, rfl, granted, inside, whole, pieces, clean, posts⟩
    obtain ⟨no_zone, no_hole⟩ := (State.pieces_clean_iff _).2 clean
    have through : s.piecesThrough e r d = (a, b) := pieces.symm
    have same : posted = (!r.kind.isLocked && (piecesOf a b).all s.allPosted) := by
      rw [Bool.eq_iff_iff, posts, State.posted_iff]
    rw [State.verdict_engine_of_opened active opened idle unconfigured,
      State.windowVerdict_of_no_fault valid (Checked.fault_of_none granted inside whole), through,
      State.classify_of_clean no_zone no_hole, same]

end Sys2Proof.Machine

/-! Translation into pieces is the region map beat by beat (R31, R32, R52 to R54). A request lies in one part of its
region; within the middle part it wraps at most once, and a piece ends there. -/

namespace Sys2Proof.Machine

theorem addBytes_addBytes (a : Word) (m n : Nat) : addBytes (addBytes a m) n = addBytes a (m + n) := by
  simp only [addBytes, BitVec.add_assoc, BitVec.ofNat_add]

theorem mod_eq_sub_of_lt_two_mul {x n : Nat} (low : ¬ x < n) (high : x < 2 * n) : x % n = x - n := by
  rw [Nat.mod_eq_sub_mod (Nat.le_of_not_lt low), Nat.mod_eq_of_lt (by omega)]

/-- The words of a piece at a distance from BASE. -/
theorem Checked.words_pieceAt (d : Checked) (distance beats : Nat) (data : List Beat) :
    (d.pieceAt distance beats data).words =
      (List.range beats).map fun i => addBytes d.base (distance + 4 * i) := by
  simp only [Piece.words, beatAddrs, Checked.pieceAt, addBytes_addBytes]

/-- A piece whose beats follow the region map from its first beat on. -/
theorem Checked.words_of_follows (d : Checked) {rotation o distance beats : Nat} (data : List Beat)
    (follows : ∀ i < beats, d.distance rotation (o + 4 * i) = distance + 4 * i) :
    (d.pieceAt distance beats data).words =
      (List.range beats).map fun i => addBytes d.base (d.distance rotation (o + 4 * i)) := by
  rw [Checked.words_pieceAt]
  refine List.map_congr_left fun i inside => ?_
  rw [follows i (List.mem_range.1 inside)]

/-! ### The region map of a rotating region -/

section
variable {d : Checked} {head tail m : Nat} {initial : Arg} (rotating : d.kind = .rotating head tail m initial)
include rotating

/-- Outside the middle part the map leaves an offset as it is (R32). -/
theorem Checked.distance_of_outside {rotation o : Nat} (outside : o < head * 256 ∨ (head + m) * 256 ≤ o) :
    d.distance rotation o = o := by
  simp only [Checked.distance, rotating]
  exact if_neg (by omega)

theorem Checked.distance_of_middle {rotation o : Nat} (low : head * 256 ≤ o) (high : o < (head + m) * 256) :
    d.distance rotation o = head * 256 + (o - head * 256 + rotation * 256) % (m * 256) := by
  simp only [Checked.distance, rotating]
  exact if_pos ⟨low, high⟩

/-- Below the wrap the middle part is shifted by the rotation. -/
theorem Checked.distance_before_wrap {rotation o : Nat} (low : head * 256 ≤ o)
    (before : o + rotation * 256 < (head + m) * 256) : d.distance rotation o = o + rotation * 256 := by
  rw [Checked.distance_of_middle rotating low (by omega), Nat.mod_eq_of_lt (by omega)]
  omega

/-- From the wrap on it begins again at its start. -/
theorem Checked.distance_after_wrap {rotation o : Nat} (rotation_lt : rotation < m) (low : head * 256 ≤ o)
    (high : o < (head + m) * 256) (after : ¬ o + rotation * 256 < (head + m) * 256) :
    d.distance rotation o = o + rotation * 256 - m * 256 := by
  have wrapped : (o - head * 256 + rotation * 256) % (m * 256) = o - head * 256 + rotation * 256 - m * 256 :=
    mod_eq_sub_of_lt_two_mul (by omega) (by omega)
  rw [Checked.distance_of_middle rotating low high, wrapped]
  omega

end

/-! ### The pieces -/

/-- What the pieces of a request are to be: the region map beat by beat, the data with it, and no piece without a
beat. -/
def Checked.Follows (d : Checked) (rotation o beats : Nat) (data : List Beat) (t : Piece × Option Piece) : Prop :=
  (piecesOf t.1 t.2).flatMap Piece.words =
      (List.range beats).map (fun i => addBytes d.base (d.distance rotation (o + 4 * i))) ∧
    (piecesOf t.1 t.2).flatMap Piece.data = data ∧
    ∀ q ∈ piecesOf t.1 t.2, 1 ≤ q.beats

section
variable {d : Checked} {rotation o beats : Nat} {data : List Beat}

theorem Checked.follows_of_one_piece {distance : Nat} (some_beats : 1 ≤ beats)
    (follows : ∀ i < beats, d.distance rotation (o + 4 * i) = distance + 4 * i) :
    d.Follows rotation o beats data (d.pieceAt distance beats data, none) := by
  refine ⟨?_, ?_, ?_⟩
  · simp [piecesOf, d.words_of_follows data follows]
  · simp [piecesOf, Checked.pieceAt]
  · simpa [piecesOf, Checked.pieceAt] using some_beats

/-- Two pieces that divide the beats, each following the map. -/
theorem Checked.follows_of_two_pieces {n x y : Nat} (first_beats : 1 ≤ n) (second_beats : n < beats)
    (first : ∀ i < n, d.distance rotation (o + 4 * i) = x + 4 * i)
    (second : ∀ i < beats - n, d.distance rotation (o + 4 * n + 4 * i) = y + 4 * i) :
    d.Follows rotation o beats data
      (d.pieceAt x n (data.take n), some (d.pieceAt y (beats - n) (data.drop n))) := by
  refine ⟨?_, ?_, ?_⟩
  · have divided : List.range beats = List.range n ++ (List.range (beats - n)).map fun i => n + i := by
      rw [← List.range_add, Nat.add_sub_cancel' (Nat.le_of_lt second_beats)]
    rw [divided, List.map_append, List.map_map]
    have later : ∀ i, o + 4 * (n + i) = o + 4 * n + 4 * i := fun i => by omega
    simp only [piecesOf, Option.toList_some, List.flatMap_cons, List.flatMap_nil, List.append_nil,
      d.words_of_follows _ first, d.words_of_follows _ second, Function.comp_def, later]
  · simp [piecesOf, Checked.pieceAt]
  · simp only [piecesOf, Option.toList_some, List.mem_cons, List.not_mem_nil, or_false, Checked.pieceAt]
    rintro q (rfl | rfl)
    · exact first_beats
    · exact Nat.sub_pos_of_lt second_beats

theorem Checked.translate_follows_of_linear (linear : d.kind = .linear) (some_beats : 1 ≤ beats) :
    d.Follows rotation o beats data (d.translate rotation o beats data) := by
  simp only [Checked.translate, linear]
  refine Checked.follows_of_one_piece some_beats fun i _ => ?_
  simp only [Checked.distance, linear]

theorem Checked.translate_follows_of_rotating {head tail m : Nat} {initial : Arg}
    (rotating : d.kind = .rotating head tail m initial) (rotation_lt : rotation < m) (aligned : o % 4 = 0)
    (some_beats : 1 ≤ beats) (whole : d.splits o (4 * beats) = false) :
    d.Follows rotation o beats data (d.translate rotation o beats data) := by
  simp only [Checked.splits_of_rotating rotating, Bool.or_eq_false_iff, crosses, Bool.and_eq_false_iff,
    decide_eq_false_iff_not, Nat.not_lt] at whole
  obtain ⟨start, stop⟩ := whole
  simp only [Checked.translate, rotating]
  split
  · rename_i outside
    refine Checked.follows_of_one_piece some_beats fun i hi => ?_
    exact Checked.distance_of_outside rotating (by omega)
  · rename_i middle
    have low : head * 256 ≤ o := by omega
    have high : o + 4 * beats ≤ (head + m) * 256 := by omega
    split
    · rename_i unwrapped
      refine Checked.follows_of_one_piece some_beats fun i hi => ?_
      by_cases before : o + rotation * 256 < (head + m) * 256
      · have unshifted : (o - head * 256 + rotation * 256) % (m * 256) = o - head * 256 + rotation * 256 :=
          Nat.mod_eq_of_lt (by omega)
        rw [Checked.distance_before_wrap rotating (by omega) (by omega), unshifted]
        omega
      · have wrapped : (o - head * 256 + rotation * 256) % (m * 256) = o - head * 256 + rotation * 256 - m * 256 :=
          mod_eq_sub_of_lt_two_mul (by omega) (by omega)
        rw [Checked.distance_after_wrap rotating rotation_lt (by omega) (by omega) (by omega), wrapped]
        omega
    · rename_i wraps
      refine Checked.follows_of_two_pieces (by omega) (by omega) (fun i hi => ?_) fun i hi => ?_
      · rw [Checked.distance_before_wrap rotating (by omega) (by omega)]
        omega
      · rw [Checked.distance_after_wrap rotating rotation_lt (by omega) (by omega) (by omega)]
        omega

end

/-- Settles O22: a linear region is its own map, and of a rotating one each part is taken alone. -/
theorem translationFollowsTheRegionMap : Obligations.TranslationFollowsTheRegionMap := by
  intro d rotation o beats data _ allowed aligned some_beats _ _ whole
  cases kind : d.kind with
  | linear => exact Checked.translate_follows_of_linear kind some_beats
  | rotating head tail m initial =>
    have rotation_lt : rotation.toNat < m := by simpa [Checked.allowsRotation, kind] using allowed
    exact Checked.translate_follows_of_rotating kind rotation_lt aligned some_beats whole

end Sys2Proof.Machine

/-! Steps 6 and 7 of admission: the sequence check and its effects (R112 to R115), and the routing of what passes (R13,
R90). -/

namespace Sys2Proof.Machine

/-! ### Faults at admission -/

/-- The record of a fault found at admission: of P0 without window and selector (R123). -/
theorem State.recordOf_eq (s : State) (k : FaultKind) (p : Port) (access : Access) (beats : Nat) (logical : Word)
    (w : Option Index8) (j : Option Selector) (phys : Option Word) : s.recordOf k p access beats logical w j phys =
      match p with
      | .p0 => ⟨k, .p0, none, access, beats, 1, logical, some logical, none, s.now⟩
      | .engine e => ⟨k, .engine e, w, access, beats, 1, logical, phys, j, s.now⟩ := by
  cases p <;> rfl

/-- Settles O24. -/
theorem faultRefusalIsReported : Obligations.FaultRefusalIsReported := by
  refine ⟨fun s p r => rfl, fun s p x k w j phys ready unheld oldest faulted => ?_⟩
  rw [exec_admission_of_unheld ready unheld oldest]
  cases p <;> simp only [State.admitRequest, faulted, State.refuseFault, State.recordOf_eq]

/-! ### The sequence check -/

section
variable {q : Sequence} {kind : Access} {touch lost : Bool} {info i : SeqInfo}

theorem lockStep_free_closing (closes : kind = .unlock ∨ kind = .unlockWrite) :
    lockStep (.free lost) kind touch info = ⟨if lost then .lost else .sequence, .free false, false, false⟩ := by
  rcases closes with rfl | rfl <;> rfl

theorem lockStep_free_lockRead : lockStep (.free lost) .lockRead touch info = ⟨.passed, .opening info, false, false⟩ :=
  rfl

theorem lockStep_free_plain (plain : kind = .read ∨ kind = .write) :
    lockStep (.free lost) kind touch info = ⟨.passed, .free false, false, false⟩ := by
  rcases plain with rfl | rfl <;> rfl

theorem lockStep_closing_locked (locked : kind = .lockRead ∨ kind = .unlock ∨ kind = .unlockWrite) :
    lockStep (.closing i) kind touch info = ⟨.sequence, .closing i, false, false⟩ := by
  rcases locked with rfl | rfl | rfl <;> rfl

theorem lockStep_closing_plain (plain : kind = .read ∨ kind = .write) :
    lockStep (.closing i) kind touch info = ⟨.passed, .closing i, false, false⟩ := by
  rcases plain with rfl | rfl <;> rfl

section
variable {after closes : Sequence} {ended : LockStep}

/-- In OPENING and HOLDING a closing request of the sequence word closes it (R113). -/
theorem openStep_closes (closing : kind = .unlock ∨ kind = .unlockWrite) :
    openStep kind true after closes ended = ⟨.passed, closes, false, false⟩ := by
  rcases closing with rfl | rfl <;> rfl

/-- What breaks a sequence in OPENING or HOLDING (R113, R115). -/
theorem openStep_breaks (breaks : kind = .lockRead ∨ ((kind = .unlock ∨ kind = .unlockWrite) ∧ touch = false) ∨
    ((kind = .read ∨ kind = .write) ∧ touch = true)) : openStep kind touch after closes ended = ended := by
  rcases breaks with rfl | ⟨rfl | rfl, rfl⟩ | ⟨rfl | rfl, rfl⟩ <;> rfl

theorem openStep_plain (plain : kind = .read ∨ kind = .write) :
    openStep kind false after closes ended = ⟨.passed, after, false, false⟩ := by
  rcases plain with rfl | rfl <;> rfl

end

theorem Sequence.touchedBy_iff (ps : List Piece) : q.touchedBy ps = true ↔
    ∃ i, (q = .opening i ∨ q = .holding i ∨ q = .closing i) ∧ ∃ y ∈ ps, i.word ∈ y.words := by
  cases q <;> simp [Sequence.touchedBy, Sequence.info]

end

/-! ### Steps 6 and 7 together -/

section
variable {s : State} {p : Port} {x : QEntry} {r : Request} {a : Piece} {b : Option Piece} {v : Option Via}
  {posted : Bool}

/-- The outcome of step 6 for a request with its pieces (R112 to R114). -/
def State.sequenceStep (s : State) (p : Port) (r : Request) (a : Piece) (b : Option Piece) (v : Option Via) :
    LockStep :=
  lockStep (s.seqOf p) r.kind ((s.seqOf p).touchedBy (piecesOf a b)) ⟨a.addr, r.addr, v⟩

section
variable {q : Sequence} {ends unmarks : Bool}

theorem State.lockAndRoute_of_passed (step : s.sequenceStep p r a b v = ⟨.passed, q, false, false⟩) :
    s.lockAndRoute p r a b v posted = (s.setSeq p q).route p r a b v posted := by
  rw [State.sequenceStep] at step
  simp only [State.lockAndRoute, step]
  rfl

theorem State.lockAndRoute_of_lost (step : s.sequenceStep p r a b v = ⟨.lost, q, false, false⟩) :
    s.lockAndRoute p r a b v posted = (s.setSeq p q).decideWaiting p (.refused .lockLost) := by
  rw [State.sequenceStep] at step
  simp only [State.lockAndRoute, step]
  rfl

theorem State.lockAndRoute_of_sequence (step : s.sequenceStep p r a b v = ⟨.sequence, q, ends, unmarks⟩) :
    s.lockAndRoute p r a b v posted = (s.applyLockStep p ⟨.sequence, q, ends, unmarks⟩).refuseFault p r .lockSequence
      (v.map Via.window) (v.map Via.selector) none := by
  rw [State.sequenceStep] at step
  simp only [State.lockAndRoute, step]

end

theorem State.setSeq_self {q : Sequence} (same : s.seqOf p = q) : s.setSeq p q = s := by
  subst same
  have kept : s.seqs.set p (s.seqOf p) = s.seqs := s.seqs.set_get_same p
  rw [State.setSeq_eq, kept]

/-- The event of an admission that passes steps 1 to 5. -/
theorem exec_admission_of_passed (ready : s.ready = true) (unheld : s.holdOf p = none)
    (oldest : oldestWaiting (s.queueOf p) = some x) (verdict : s.verdict p x.req = .passed a b v posted) :
    exec (.admission p) s = .next (s.lockAndRoute p x.req a b v posted).settle := by
  rw [exec_admission_of_unheld ready unheld oldest]
  simp only [State.admitRequest, verdict]

/-! ### What becomes ADMITTED -/

theorem State.verdict_passed_cases (verdict : s.verdict p r = .passed a b v posted) :
    p = .p0 ∨ s.opState = .active := by
  cases p with
  | p0 => exact .inl rfl
  | engine e => exact .inr (State.engineVerdict_passed verdict).1

/-- Outside STOPPING, or with P0's Port Unit alone changed, STOP does not become due. -/
theorem State.stop_not_due_of_passed {t : State} {u : PortUnit} (verdict : s.verdict p r = .passed a b v posted)
    (not_due : s.stopDue = false) (ports : t.ports = s.ports.set p u) (opState : t.opState = s.opState)
    (buffer : t.buffer = s.buffer) (staged : t.staged = s.staged) (ring : t.ring = s.ring)
    (producer : t.producer = s.producer) (consumer : t.consumer = s.consumer) : t.stopDue = false := by
  rcases State.verdict_passed_cases verdict with supervisor | active
  · exact State.stop_not_due_of_set not_due ports (.inl supervisor) opState buffer staged ring producer consumer
  · exact State.stopDue_of_not_stopping (by rw [opState, active]; simp)

theorem PortUnit.settled_updateFirst {u : PortUnit} {test : QEntry → Bool} {f : QEntry → QEntry}
    (settled : u.settled = true) (undecided : ∀ e, test e = true → (f e).isDecided = false) (n : Nat) :
    ({ u with queue := updateFirst test f u.queue, nextPlace := n } : PortUnit).settled = true := by
  obtain ⟨queue, link, given, hold, place⟩ := u
  simp only [PortUnit.settled, Bool.and_eq_true, length_updateFirst] at settled ⊢
  refine ⟨?_, settled.2⟩
  cases queue with
  | nil => rfl
  | cons y back =>
    unfold updateFirst
    split
    · rename_i here
      simpa using undecided y here
    · exact settled.1

theorem length_piecesOf (a : Piece) (b : Option Piece) : (piecesOf a b).length = if b = none then 1 else 2 := by
  cases b <;> rfl

/-- The state in which a request has become ADMITTED and has taken its places (R13, R92). -/
def State.candidateMade (s : State) (p : Port) (a : Piece) (b : Option Piece) (v : Option Via) (opensLock : Bool)
    (q : Sequence) : State :=
  { s with
    ports := s.ports.set p { s.unit p with
      queue := updateFirst QEntry.isWaiting
        (fun y => ⟨y.req, .admitted ⟨(s.unit p).nextPlace, a, b, v, opensLock⟩⟩) (s.queueOf p)
      nextPlace := (s.unit p).nextPlace + (if b = none then 1 else 2) }
    seqs := s.seqs.set p q }

theorem State.route_of_candidate {q : Sequence} (unposted : ¬ (r.kind = .write ∧ posted = true)) :
    (s.setSeq p q).route p r a b v posted = s.candidateMade p a b v (decide (r.kind = .lockRead)) q := by
  rw [State.route, if_neg unposted, State.makeCandidate, length_piecesOf]
  rfl

/-- The event of an admission that makes its request a candidate. -/
theorem exec_admission_of_candidate {q : Sequence} (ready : s.ready = true) (unheld : s.holdOf p = none)
    (oldest : oldestWaiting (s.queueOf p) = some x) (verdict : s.verdict p x.req = .passed a b v posted)
    (step : s.sequenceStep p x.req a b v = ⟨.passed, q, false, false⟩)
    (unposted : ¬ (x.req.kind = .write ∧ posted = true)) :
    exec (.admission p) s = .next (s.candidateMade p a b v (decide (x.req.kind = .lockRead)) q) := by
  obtain ⟨-, settled⟩ := State.ready_iff.1 ready
  obtain ⟨-, not_due, irq, unchanged⟩ := s.settled_iff.1 settled
  rw [exec_admission_of_passed ready unheld oldest verdict, State.lockAndRoute_of_passed step,
    State.route_of_candidate unposted]
  have unit := PortUnit.settled_updateFirst (test := QEntry.isWaiting)
    (f := fun y => ⟨y.req, .admitted ⟨(s.unit p).nextPlace, a, b, v,
    decide (x.req.kind = .lockRead)⟩⟩) (s.unit_settled settled p) (fun _ _ => rfl)
    ((s.unit p).nextPlace + (if b = none then 1 else 2))
  refine congrArg Host.Outcome.next (State.settle_of_settled_set settled unit rfl ?_ irq unchanged)
  exact State.stop_not_due_of_passed verdict not_due rfl rfl rfl rfl rfl rfl rfl

/-! ### The Posted Write Buffer -/

theorem allIndexes_eq : allIndexes = List.finRange 8 := rfl

/-- The lowest-numbered free entry (R90). -/
theorem State.lowestFree_eq_some_iff {i : Index8} : s.lowestFree = some i ↔
    s.buffer.get i = none ∧ ∀ j, j < i → s.buffer.get j ≠ none := by
  rw [State.lowestFree, allIndexes_eq, List.find?_eq_some_iff_getElem]
  simp only [Option.isNone_iff_eq_none, List.getElem_finRange, List.length_finRange, Bool.not_eq_true',
    Option.isNone_eq_false_iff, Option.isSome_iff_ne_none]
  refine and_congr_right fun _ => ⟨?_, fun low => ⟨i.val, i.isLt, rfl, fun j below => low _ below⟩⟩
  rintro ⟨n, inside, rfl, low⟩ j below
  exact low j.val below

theorem State.lowestFree_eq_none_iff : s.lowestFree = none ↔ ∀ j, s.buffer.get j ≠ none := by
  simp [State.lowestFree, allIndexes_eq]

theorem State.freeEntries_eq :
    s.freeEntries = ((List.finRange 8).filter fun j => (s.buffer.get j).isNone).length := by
  rw [State.freeEntries, Eight.toList_eq_map_get, List.filter_map, List.length_map]
  rfl

theorem State.fillEntry_of_lowestFree {i : Index8} (free : s.lowestFree = some i) (w : Posted) :
    s.fillEntry w = { s with buffer := s.buffer.set i (some w) } := by
  simp only [State.fillEntry, free]
  rfl

theorem State.lowestFree_congr {t : State} (same : t.buffer = s.buffer) : t.lowestFree = s.lowestFree := by
  simp only [State.lowestFree, same]

/-- Free entries counted as a set of numbers. -/
theorem State.freeEntries_eq_card :
    s.freeEntries = (Finset.univ.filter fun j => (s.buffer.get j).isNone = true).card := by
  have distinct : ((List.finRange 8).filter fun j => (s.buffer.get j).isNone).Nodup := (List.nodup_finRange 8).filter _
  rw [State.freeEntries_eq, ← List.toFinset_card_of_nodup distinct]
  congr 1
  ext j
  simp

theorem State.one_le_freeEntries {i : Index8} (free : s.lowestFree = some i) : 1 ≤ s.freeEntries := by
  rw [State.freeEntries_eq_card, Nat.one_le_iff_ne_zero, Finset.card_ne_zero]
  exact ⟨i, by simp [(State.lowestFree_eq_some_iff.1 free).1]⟩

/-- A free entry beside the lowest-numbered one. -/
theorem State.two_le_freeEntries {i j : Index8} {w : Posted} (free : s.lowestFree = some i)
    (next : ({ s with buffer := s.buffer.set i (some w) } : State).lowestFree = some j) : 2 ≤ s.freeEntries := by
  obtain ⟨filled, -⟩ := State.lowestFree_eq_some_iff.1 next
  have other : j ≠ i := by
    rintro rfl
    rw [Eight.get_set_same] at filled
    cases filled
  rw [Eight.get_set_other _ _ _ _ other] at filled
  rw [State.freeEntries_eq_card]
  exact Finset.one_lt_card.2 ⟨i, by simp [(State.lowestFree_eq_some_iff.1 free).1], j, by simp [filled], other.symm⟩

/-- STOP waits for the buffer to be empty (R165). -/
theorem State.stop_not_due_of_occupied {i : Index8} {w : Posted} (occupied : s.buffer.get i = some w) :
    s.stopDue = false := by
  have not_empty : s.bufferEmpty = false := by
    rw [State.bufferEmpty, Eight.toList_eq_map_get, List.all_eq_false]
    exact ⟨some w, List.mem_map.2 ⟨i, List.mem_finRange i, occupied⟩, by simp⟩
  simp [State.stopDue, not_empty]

/-! ### A posted WRITE -/

section
variable {q : Sequence}

/-- The state in which a WRITE has been posted: its queue entry is decided DONE and the buffer filled (R13, R90). -/
def State.postedTo (s : State) (p : Port) (q : Sequence) (buffer : Eight (Option Posted)) (places : Nat) : State :=
  { s with
    ports := s.ports.set p { s.unit p with
      queue := updateFirst QEntry.isWaiting (QEntry.decide (.done [])) (s.queueOf p)
      hold := none
      nextPlace := (s.unit p).nextPlace + places }
    buffer := buffer
    seqs := s.seqs.set p q }

theorem State.settle_postedTo {buffer : Eight (Option Posted)} {i : Index8} {w : Posted} (settled : s.settled = true)
    (occupied : buffer.get i = some w) (places : Nat) : (s.postedTo p q buffer places).settle = { s with
      ports := s.ports.set p { (s.unit p).respond (.done []) with nextPlace := (s.unit p).nextPlace + places }
      buffer := buffer
      seqs := s.seqs.set p q } := by
  obtain ⟨-, -, irq, unchanged⟩ := s.settled_iff.1 settled
  have not_due : (s.postedTo p q buffer places).stopDue = false := State.stop_not_due_of_occupied occupied
  rw [State.settle_of_set settled (t := s.postedTo p q buffer places) rfl not_due irq unchanged]
  have given := PortUnit.answer_setNextPlace ({ s.unit p with
    queue := updateFirst QEntry.isWaiting (QEntry.decide (.done [])) (s.queueOf p), hold := none } : PortUnit)
    ((s.unit p).nextPlace + places)
  rw [given]
  rfl

/-- One piece fills the lowest-numbered free entry. -/
theorem State.route_of_posted_one {i : Index8} (write : r.kind = .write) (free : s.lowestFree = some i) :
    (s.setSeq p q).route p r a none v true =
      s.postedTo p q (s.buffer.set i (some ⟨p, (s.unit p).nextPlace, r.addr, a, v, false, false⟩)) 1 := by
  have room : (piecesOf a none).length ≤ (s.setSeq p q).freeEntries := State.one_le_freeEntries (s := s) free
  rw [State.route, if_pos ⟨write, rfl⟩, if_pos room]
  simp only [State.post]
  rw [State.fillEntry_of_lowestFree (s := s.setSeq p q) free]
  simp only [State.decideWaiting_eq, State.setUnit_eq, State.setSeq_eq, State.unit, State.queueOf, PerPort.get_set_same,
    PerPort.set_set_same]
  rfl

/-- A second piece fills the next. -/
theorem State.route_of_posted_two {i j : Index8} {z : Piece} (write : r.kind = .write) (free : s.lowestFree = some i)
    (next : ({ s with
      buffer := s.buffer.set i (some ⟨p, (s.unit p).nextPlace, r.addr, a, v, false, false⟩) } : State).lowestFree =
        some j) :
    (s.setSeq p q).route p r a (some z) v true =
      s.postedTo p q ((s.buffer.set i (some ⟨p, (s.unit p).nextPlace, r.addr, a, v, false, false⟩)).set j
        (some ⟨p, (s.unit p).nextPlace + 1, addBytes r.addr (4 * a.beats), z, v, false, false⟩)) 2 := by
  have room : (piecesOf a (some z)).length ≤ (s.setSeq p q).freeEntries := State.two_le_freeEntries (s := s) free next
  rw [State.route, if_pos ⟨write, rfl⟩, if_pos room]
  simp only [State.post]
  rw [State.fillEntry_of_lowestFree (s := s.setSeq p q) free, State.fillEntry_of_lowestFree (i := j) (by exact next)]
  simp only [State.decideWaiting_eq, State.setUnit_eq, State.setSeq_eq, State.unit, State.queueOf, PerPort.get_set_same,
    PerPort.set_set_same]
  rfl

theorem State.route_of_no_room (write : r.kind = .write) (full : s.freeEntries < (if b = none then 1 else 2)) :
    (s.setSeq p q).route p r a b v true = { s with
      ports := s.ports.set p { s.unit p with hold := some .bufferSpace }, seqs := s.seqs.set p q } := by
  have no_room : ¬ (piecesOf a b).length ≤ (s.setSeq p q).freeEntries := by
    rw [length_piecesOf, Nat.not_le]
    exact full
  rw [State.route, if_pos ⟨write, rfl⟩, if_neg no_room]
  rfl

end

/-- What step 6 leaves of a sequence record that the request does not break: a LOST flag of a port in FREE is cleared
(R112). -/
def Sequence.lostCleared : Sequence → Sequence
  | .free _ => .free false
  | .opening n => .opening n
  | .holding n => .holding n
  | .closing n => .closing n

/-- A READ or WRITE that does not touch the sequence word passes, and in CLOSING any does (R112 to R114). -/
theorem State.sequenceStep_of_plain (plain : r.kind = .read ∨ r.kind = .write)
    (apart : (s.seqOf p).touchedBy (piecesOf a b) = false ∨ ∃ n, s.seqOf p = .closing n) :
    s.sequenceStep p r a b v = ⟨.passed, (s.seqOf p).lostCleared, false, false⟩ := by
  rw [State.sequenceStep]
  cases record : s.seqOf p with
  | free lost => exact lockStep_free_plain plain
  | closing n => exact lockStep_closing_plain plain
  | opening n | holding n =>
    have untouched : (s.seqOf p).touchedBy (piecesOf a b) = false :=
      apart.resolve_right (by simp [record])
    rw [record] at untouched
    rw [untouched]
    exact openStep_plain plain

end

/-- Settles O23: a case for each way a request is routed. -/
theorem passedRequestsAreRouted : Obligations.PassedRequestsAreRouted := by
  refine ⟨fun s i => ⟨State.lowestFree_eq_some_iff, State.lowestFree_eq_none_iff, State.freeEntries_eq⟩,
    fun s p x a b v posted lost i j z ready unheld oldest verdict => ?_⟩
  have routed {t : State} {q : Sequence} (step : s.sequenceStep p x.req a b v = ⟨.passed, q, false, false⟩)
      (route : (s.setSeq p q).route p x.req a b v posted = t) : exec (.admission p) s = .next t.settle := by
    rw [exec_admission_of_passed ready unheld oldest verdict, State.lockAndRoute_of_passed step, route]
  obtain ⟨-, settled⟩ := State.ready_iff.1 ready
  obtain ⟨-, not_due, irq, unchanged⟩ := s.settled_iff.1 settled
  refine ⟨fun unposted apart => ?candidate, fun kind free => ?opens, ?one, ?two, ?held⟩
  case candidate =>
    have plain : x.req.kind = .read ∨ x.req.kind = .write := unposted.imp_right And.left
    have not_posted : ¬ (x.req.kind = .write ∧ posted = true) := by
      rintro ⟨write, posts⟩
      rcases unposted with read | ⟨-, not_posts⟩
      · cases read.symm.trans write
      · cases not_posts.symm.trans posts
    have no_lock : decide (x.req.kind = .lockRead) = false := by rcases plain with kind | kind <;> simp [kind]
    rw [exec_admission_of_candidate ready unheld oldest verdict (State.sequenceStep_of_plain plain apart) not_posted,
      no_lock]
    rfl
  case opens =>
    have step : s.sequenceStep p x.req a b v = ⟨.passed, .opening ⟨a.addr, x.req.addr, v⟩, false, false⟩ := by
      rw [State.sequenceStep, free, kind]
      rfl
    rw [exec_admission_of_candidate ready unheld oldest verdict step (by simp [kind]), decide_eq_true kind]
    rfl
  case one =>
    rintro kind rfl apart rfl free
    rw [routed (State.sequenceStep_of_plain (.inr kind) apart) (State.route_of_posted_one kind free),
      State.settle_postedTo settled (i := i) (Eight.get_set_same _ _ _)]
    rfl
  case two =>
    rintro kind rfl apart rfl free next
    rw [routed (State.sequenceStep_of_plain (.inr kind) apart) (State.route_of_posted_two kind free next),
      State.settle_postedTo settled (i := j) (Eight.get_set_same _ _ _)]
    rfl
  case held =>
    rintro kind rfl apart full
    rw [routed (State.sequenceStep_of_plain (.inr kind) apart) (State.route_of_no_room kind full)]
    have unit : ({ s.unit p with hold := some .bufferSpace } : PortUnit).settled = true := s.unit_settled settled p
    refine congrArg Host.Outcome.next (State.settle_of_settled_set (p := p) settled unit rfl ?_ irq unchanged)
    exact State.stop_not_due_of_set (p := p) (u := { s.unit p with hold := some .bufferSpace }) not_due rfl
      (.inr rfl) rfl
      rfl rfl rfl rfl rfl

end Sys2Proof.Machine

/-! The sequence check at admission (R112 to R115). -/

namespace Sys2Proof.Machine

section
variable {s : State} {p : Port} {x : QEntry} {r : Request} {a : Piece} {b : Option Piece} {v : Option Via}
  {posted : Bool} {i : SeqInfo}

/-- The pieces of a request touch a word. -/
theorem Sequence.touchedBy_of_info {q : Sequence} (info : q.info = some i) (ps : List Piece) :
    q.touchedBy ps = ps.any fun y => y.words.any fun w => decide (w = i.word) := by
  simp only [Sequence.touchedBy, info, Option.any_some]

theorem State.sequenceStep_of_info (info : (s.seqOf p).info = some i) :
    s.sequenceStep p r a b v = lockStep (s.seqOf p) r.kind
      ((piecesOf a b).any fun y => y.words.any fun w => decide (w = i.word)) ⟨a.addr, r.addr, v⟩ := by
  rw [State.sequenceStep, Sequence.touchedBy_of_info info]

/-- The state in which a request has been refused LOCK_SEQUENCE and reported (R114, R123). -/
def State.sequenceRefused (s : State) (p : Port) (r : Request) (v : Option Via) : State :=
  (s.decideWaiting p (.refused (.fault .lockSequence))).report
    (match p with
      | .p0 => ⟨.lockSequence, .p0, none, r.kind, r.beats, 1, r.addr, some r.addr, none, s.now⟩
      | .engine e => ⟨.lockSequence, .engine e, v.map Via.window, r.kind, r.beats, 1, r.addr, none,
          v.map Via.selector, s.now⟩)

theorem State.refuseFault_lockSequence : s.refuseFault p r .lockSequence (v.map Via.window) (v.map Via.selector) none =
    s.sequenceRefused p r v := by
  cases p <;> rfl

/-- The event of an admission that step 6 refuses LOCK_SEQUENCE. -/
theorem exec_admission_of_sequence {q : Sequence} {ends unmarks : Bool} (ready : s.ready = true)
    (unheld : s.holdOf p = none) (oldest : oldestWaiting (s.queueOf p) = some x)
    (verdict : s.verdict p x.req = .passed a b v posted)
    (step : s.sequenceStep p x.req a b v = ⟨.sequence, q, ends, unmarks⟩) : exec (.admission p) s =
      .next ((s.applyLockStep p ⟨.sequence, q, ends, unmarks⟩).sequenceRefused p x.req v).settle := by
  rw [exec_admission_of_passed ready unheld oldest verdict, State.lockAndRoute_of_sequence step,
    State.refuseFault_lockSequence]

theorem State.applyLockStep_ends (q : Sequence) : s.applyLockStep p ⟨.sequence, q, true, false⟩ =
    { s with lock := none, seqs := s.seqs.set p q } := rfl

theorem State.applyLockStep_unmarks (q : Sequence) : s.applyLockStep p ⟨.sequence, q, false, true⟩ =
    ({ s with seqs := s.seqs.set p q } : State).unmarkLockRead p := rfl

/-- A refusal LOCK_LOST, which clears the flag. -/
theorem State.settle_setSeq_decideWaiting (settled : s.settled = true) (q : Sequence) (d : Response) :
    ((s.setSeq p q).decideWaiting p d).settle = { s with
      ports := s.ports.set p ((s.unit p).respond d), seqs := s.seqs.set p q } := by
  have still : ({ s with seqs := s.seqs.set p q } : State).settled = true := settled
  exact State.settle_decideWaiting still d

/-- An event that step 6 refuses LOCK_SEQUENCE with no effect on the sequence (R112, R114). -/
theorem exec_admission_of_sequence_kept {q : Sequence} (ready : s.ready = true) (unheld : s.holdOf p = none)
    (oldest : oldestWaiting (s.queueOf p) = some x) (verdict : s.verdict p x.req = .passed a b v posted)
    (record : s.seqOf p = q) (step : s.sequenceStep p x.req a b v = ⟨.sequence, q, false, false⟩) :
    exec (.admission p) s = .next (s.sequenceRefused p x.req v).settle := by
  have kept : s.applyLockStep p ⟨.sequence, q, false, false⟩ = s := State.setSeq_self record
  rw [exec_admission_of_sequence ready unheld oldest verdict step, kept]

/-- The queue entry that `unmarkLockRead` changes. -/
theorem updateFirst_append {α : Type} {test : α → Bool} {f : α → α} {front back : List α} {y : α}
    (before : ∀ z ∈ front, test z = false) (here : test y = true) :
    updateFirst test f (front ++ y :: back) = front ++ f y :: back := by
  induction front with
  | nil => simp [updateFirst, here]
  | cons z zs ih =>
    have not_z := before z List.mem_cons_self
    simp [updateFirst, not_z, ih fun w hw => before w (List.mem_cons_of_mem _ hw)]

end

/-- Settles O25: the table of step 6, and its outcome at admission for each phase. -/
theorem sequencesAreChecked : Obligations.SequencesAreChecked := by
  refine ⟨fun i j touch lost kind => ⟨fun closing => ?_, ?_, fun plain => ?_⟩,
    fun q ps z => ⟨Sequence.touchedBy_iff ps, rfl⟩,
    fun s p x a b v posted i ready unheld oldest verdict => ?admission,
      fun s p front back x a queue before kind phase opens => ?unmarks⟩
  · exact ⟨lockStep_free_closing closing, lockStep_free_closing closing, openStep_closes closing,
      openStep_closes closing, openStep_breaks (.inr (.inl ⟨closing, rfl⟩)),
      openStep_breaks (.inr (.inl ⟨closing, rfl⟩)),
      lockStep_closing_locked (.inr closing)⟩
  · exact fun locks => ⟨by rw [locks]; exact lockStep_free_lockRead, openStep_breaks (.inl locks),
      openStep_breaks (.inl locks), lockStep_closing_locked (.inl locks)⟩
  · exact ⟨lockStep_free_plain plain, openStep_breaks (.inr (.inr ⟨plain, rfl⟩)),
      openStep_breaks (.inr (.inr ⟨plain, rfl⟩)), openStep_plain plain, openStep_plain plain,
      lockStep_closing_plain plain⟩
  case admission =>
    intro touch closes breaks refused
    refine ⟨fun record closing => ?lost, fun record closing => ?free, fun record broken => ?holding,
      fun record broken => ?opening, fun record locked => ?closing, fun record closing touched => ?candidate⟩
    case lost =>
      have step : s.sequenceStep p x.req a b v = ⟨.lost, .free false, false, false⟩ := by
        rw [State.sequenceStep, record]
        exact lockStep_free_closing closing
      rw [exec_admission_of_passed ready unheld oldest verdict, State.lockAndRoute_of_lost step]
      exact congrArg Host.Outcome.next (State.settle_setSeq_decideWaiting (State.ready_iff.1 ready).2 _ _)
    case free =>
      have step : s.sequenceStep p x.req a b v = ⟨.sequence, .free false, false, false⟩ := by
        rw [State.sequenceStep, record]
        exact lockStep_free_closing closing
      exact exec_admission_of_sequence_kept ready unheld oldest verdict record step
    case holding =>
      have step : s.sequenceStep p x.req a b v = ⟨.sequence, .free false, true, false⟩ := by
        rw [State.sequenceStep_of_info (i := i) (by rw [record]; rfl), record]
        exact openStep_breaks broken
      rw [exec_admission_of_sequence ready unheld oldest verdict step, State.applyLockStep_ends]
      rfl
    case opening =>
      have step : s.sequenceStep p x.req a b v = ⟨.sequence, .free false, false, true⟩ := by
        rw [State.sequenceStep_of_info (i := i) (by rw [record]; rfl), record]
        exact openStep_breaks broken
      rw [exec_admission_of_sequence ready unheld oldest verdict step, State.applyLockStep_unmarks]
      rfl
    case closing =>
      have step : s.sequenceStep p x.req a b v = ⟨.sequence, .closing i, false, false⟩ := by
        rw [State.sequenceStep, record]
        exact lockStep_closing_locked (locked.elim .inr .inl)
      exact exec_admission_of_sequence_kept ready unheld oldest verdict record step
    case candidate =>
      have step : s.sequenceStep p x.req a b v = ⟨.passed, .closing i, false, false⟩ := by
        have info : (s.seqOf p).info = some i := by rcases record with record | record <;> rw [record] <;> rfl
        rw [State.sequenceStep_of_info info]
        have touches : ((piecesOf a b).any fun y => y.words.any fun w => decide (w = i.word)) = true := touched
        rw [touches]
        rcases record with record | record <;> rw [record] <;> exact openStep_closes closing
      have not_write : ¬ (x.req.kind = .write ∧ posted = true) := by
        rintro ⟨write, -⟩
        rcases closing with kind | kind <;> cases kind.symm.trans write
      have no_lock : decide (x.req.kind = .lockRead) = false := by rcases closing with kind | kind <;> simp [kind]
      rw [exec_admission_of_candidate ready unheld oldest verdict step not_write, no_lock]
      rfl
  case unmarks =>
    rw [State.unmarkLockRead, State.setQueue, State.setUnit_eq, queue, updateFirst_append]
    · simp only [phase]
    · intro z inside
      by_cases locks : z.req.kind = .lockRead
      · have not_admitted := before z inside locks
        unfold QEntry.isAdmitted at not_admitted
        split at not_admitted <;> simp_all
      · simp [locks]
    · simp [kind, phase, opens]

end Sys2Proof.Machine

/-! Commands written into COMMAND (R157, R158): the refusals, the commands that end in the event that takes them, and
those that become the command in progress. -/

namespace Sys2Proof.Machine

/-! ### The ends of these events -/

section
variable {s t : State}

theorem State.stop_not_due_of_same (not_due : s.stopDue = false) (ports : t.ports = s.ports)
    (opState : t.opState = s.opState) (buffer : t.buffer = s.buffer) (staged : t.staged = s.staged)
    (ring : t.ring = s.ring) (producer : t.producer = s.producer) (consumer : t.consumer = s.consumer) :
    t.stopDue = false :=
  (State.stopDue_congr opState (by rw [State.enginesIdle, State.enginesIdle, ports]) buffer staged ring producer
    consumer).trans not_due

/-- Nothing to give or to accept on any port. -/
theorem State.map_answer_of_settled (settled : s.settled = true) : s.ports.map PortUnit.answer = s.ports :=
  s.ports.map_unchanged _ fun p => PortUnit.answer_of_settled _ ((s.settled_iff.1 settled).1 p)

/-- The event that changes the latched causes alone (R169, R173). -/
theorem State.settle_changeCauses (settled : s.settled = true) (c : Causes) :
    (s.changeCauses c).settle = s.afterCauses c := by
  obtain ⟨-, not_due, -, unchanged⟩ := s.settled_iff.1 settled
  rw [State.changeCauses_eq, unchanged, Bool.false_or]
  have still_not_due : ({ s with causes := c, statusChanged := decide (c ≠ s.causes) } : State).stopDue = false :=
    State.stop_not_due_of_same (s := s) not_due rfl rfl rfl rfl rfl rfl rfl
  rw [State.settle_of_stop_not_due _ still_not_due]
  simp only [State.concluded, State.map_answer_of_settled settled, State.afterCauses, Bool.and_eq_true,
    decide_eq_true_eq,
    Bool.not_eq_true', and_assoc]
  rw [← unchanged]
  rfl

/-- The end of an event that has noted a change with reporting on and no update waiting (R169). -/
theorem State.settle_of_noted (not_due : t.stopDue = false) (changed : t.statusChanged = true)
    (reporting : t.reporting = true) (none_waits : t.statusWaiting = false) : t.settle = { t with
      ports := t.ports.map PortUnit.answer
      irqAsserted := t.irqLevel
      ctl := t.ctl ++ [t.statusRequest]
      statusChanged := false } := by
  rw [t.settle_of_stop_not_due not_due, State.concluded, changed, reporting, none_waits]
  rfl

/-- The state in which a command has become the command in progress, before the end of the event. -/
def State.begun (s : State) (code : BitVec 8) (k : Command) (needs : List CtlRequest) : State :=
  { s with
    ctl := s.ctlUnwaiting ++ s.resultRequest code .inProgress 0 :: needs
    command := some k
    reporting := true
    statusChanged := true }

theorem State.not_statusWaiting_begun {code : BitVec 8} {k : Command} {needs : List CtlRequest}
    (no_status : needs.any CtlRequest.isStatus = false) : (s.begun code k needs).statusWaiting = false := by
  rw [State.statusWaiting, State.begun, State.ctlUnwaiting, List.any_append, List.any_cons, no_status]
  simp [State.resultRequest, CtlRequest.isStatus]

/-- The event in which a command becomes the command in progress (R158, R169). -/
theorem State.settle_begun (settled : s.settled = true) (code : BitVec 8) (k : Command) (needs : List CtlRequest)
    (no_status : needs.any CtlRequest.isStatus = false) :
    (s.begun code k needs).settle = s.afterBegin code k needs := by
  obtain ⟨-, not_due, irq, unchanged⟩ := s.settled_iff.1 settled
  have still_not_due : (s.begun code k needs).stopDue = false :=
    State.stop_not_due_of_same not_due rfl rfl rfl rfl rfl rfl rfl
  have level : (s.begun code k needs).irqLevel = s.irqAsserted := irq.symm
  rw [State.settle_of_noted still_not_due rfl rfl (State.not_statusWaiting_begun no_status), level]
  have answered : (s.begun code k needs).ports.map PortUnit.answer = s.ports :=
    State.map_answer_of_settled (s := s) settled
  rw [answered, State.afterBegin, ← unchanged]
  simp only [State.begun, List.append_assoc, List.cons_append]
  rfl

theorem State.begin_of_idle (idle : s.command = none) (c : CommandWrite) (k : Command) :
    (s.setReporting true).begin c k = s.begun (commandCode c) k [] := by
  have idle_here : (s.setReporting true).command = none := idle
  rw [State.begin_eq, idle_here]
  simp only [State.begun, Option.isSome_none, Bool.not_false, Bool.or_true, Bool.true_or]
  rfl

end

/-! ### The rows that write COMMAND -/

/-- A row that is a COMMAND write of a command, and the event that takes it. -/
theorem exec_of_command {s : State} {c : Instr} {k : CommandWrite} (ready : s.ready = true)
    (row : eventOf c = some fun t => t.commandWritten k) (inside : presentsRequest c = false) (idle : s.command = none)
    (acts : k ≠ .ignored) : exec c s = .next ((s.setReporting true).takeCommand k).settle := by
  rw [exec_of_ready ready row inside, s.commandWritten_of_idle k idle acts]

theorem commandOf_eq_ignored_iff {l : Lanes} {w : Word} : commandOf l w = .ignored ↔ l = 15 ∧ codeField w = 0 := by
  unfold commandOf
  split
  · rename_i part
    exact ⟨fun ignored => CommandWrite.noConfusion ignored, fun ⟨covered, _⟩ => absurd covered part⟩
  · rename_i covered
    have code : codeField w = 0 ↔ (codeField w).toNat = 0 := by rw [← BitVec.toNat_inj]; rfl
    rw [code]
    split <;> simp_all

theorem commandOf_of_part {l : Lanes} (w : Word) (part : l ≠ 15) : commandOf l w = .malformed := if_pos part

/-- The codes from 0Ch on name no command (R157 case 4). -/
theorem commandOf_of_unknown {w : Word} (above : 12 ≤ (codeField w).toNat) :
    commandOf 15 w = .unknown (codeField w) := by
  unfold commandOf
  rw [if_neg (by simp)]
  split <;> first | omega | rfl

theorem State.commandWord_of_written (s : State) {l : Lanes} (written : l ≠ 0) (w : Word) :
    s.commandWord l w = s.commandWritten (commandOf l w) := if_neg written

/-- A COMMAND write other than a covered 00h (R157). -/
theorem exec_of_writesCommand {c : Instr} (s : State) (writes : writesCommand c = true) (wf : c.wf = true) :
    ∃ k, k ≠ .ignored ∧ exec c s = s.event fun t => t.commandWritten k := by
  have word {l : Lanes} {w : Word} (written : l ≠ 0) (not_ignored : ¬ (l = 15 ∧ codeField w = 0)) :
      ∃ k, k ≠ .ignored ∧ (s.event fun t => t.commandWord l w) = s.event fun t => t.commandWritten k := by
    refine ⟨commandOf l w, fun ignored => not_ignored (commandOf_eq_ignored_iff.1 ignored), ?_⟩
    have same : (fun t : State => t.commandWord l w) = fun t => t.commandWritten (commandOf l w) :=
      funext fun t => t.commandWord_of_written written w
    rw [same]
  cases c with
  | unknownCommand w =>
    have above : 12 ≤ (codeField w).toNat := by simpa [Instr.wf] using wf
    exact word (by decide) fun ⟨_, zero⟩ => by simp [zero] at above
  | malformed l w =>
    obtain ⟨written, part⟩ : l ≠ 0 ∧ l ≠ 15 := by simpa [Instr.wf] using wf
    exact word written fun ⟨covered, _⟩ => part covered
  | commandOverrun l w =>
    obtain ⟨written, acts⟩ : l ≠ 0 ∧ (l ≠ 15 ∨ codeField w ≠ 0) := by simpa [Instr.wf] using wf
    exact word written fun ⟨covered, zero⟩ => acts.elim (absurd covered) (absurd zero)
  | start | stop | loadWindow _ _ _ | clearWindow _ _ | rotate _ _ _ | invalidate _ | invalidateAll | releasePort _
  | configurePort _ | reloadMap | drain => exact ⟨_, by simp, rfl⟩
  | _ => cases writes

/-- The command of a row that is taken in ACTIVE alone (R157 case 5, R158). -/
theorem command_of_activeCode {c : Instr} {code : BitVec 8} (active : activeCode c = some code) :
    ∃ k, k ≠ .ignored ∧ commandCode k = code ∧ eventOf c = (some fun t => t.commandWritten k) ∧
      presentsRequest c = false ∧
      ∀ s : State, s.opState ≠ .active → s.takeCommand k = s.finalResult code .wrongState 0 := by
  cases c with
  | stop | loadWindow _ _ _ | clearWindow _ _ | rotate _ _ _ | invalidate _ | invalidateAll | releasePort _
  | configurePort _ | reloadMap | drain =>
    cases active
    exact ⟨_, by simp, rfl, rfl, rfl, fun s inactive => if_neg inactive⟩
  | _ => cases active

/-! ### Commands that end in the event that takes them -/

section
variable {s : State} (ready : s.ready = true) (idle : s.command = none) (stand : s.holdsStand = true)
include ready idle stand

/-- The event of a command that ends as it is taken, from what taking it gives: its final result on a state `u` in
which nothing is due and no hold is one of a command. -/
theorem exec_of_completed_on {c : Instr} {k : CommandWrite} {u : State} {code : BitVec 8} {o : CommandOutcome}
    (row : eventOf c = some fun t => t.commandWritten k) (inside : presentsRequest c = false) (acts : k ≠ .ignored)
    (taken : (s.setReporting true).takeCommand k = (u.setReporting true).finalResult code o 0)
    (settled : u.settled = true) (command : u.command = s.command)
    (unheld : ∀ p, (s.holdOf p).any Hold.ofCommand = false → (u.holdOf p).any Hold.ofCommand = false) :
    exec c s = .next (u.afterResult code o 0 false) := by
  rw [exec_of_command ready row inside idle acts, taken,
    u.settle_finalResult settled (command.trans idle) fun p => unheld p (s.no_command_hold stand idle p)]

/-- The same where taking it changes nothing but the result. -/
theorem exec_of_completed {c : Instr} {k : CommandWrite} {code : BitVec 8} {o : CommandOutcome}
    (row : eventOf c = some fun t => t.commandWritten k) (inside : presentsRequest c = false) (acts : k ≠ .ignored)
    (taken : (s.setReporting true).takeCommand k = (s.setReporting true).finalResult code o 0) :
    exec c s = .next (s.afterResult code o 0 false) :=
  exec_of_completed_on ready idle stand row inside acts taken (State.ready_iff.1 ready).2 rfl fun _ unheld => unheld

end

/-- The event in which a command becomes the command in progress, on a state `u` in which nothing is due. -/
theorem exec_of_begun {s u : State} {c : Instr} {k : CommandWrite} {code : BitVec 8} {m : Command}
    {needs : List CtlRequest} (ready : s.ready = true) (idle : s.command = none)
    (row : eventOf c = some fun t => t.commandWritten k) (inside : presentsRequest c = false) (acts : k ≠ .ignored)
    (taken : (s.setReporting true).takeCommand k = u.begun code m needs) (settled : u.settled = true)
    (no_status : needs.any CtlRequest.isStatus = false) : exec c s = .next (u.afterBegin code m needs) := by
  rw [exec_of_command ready row inside idle acts, taken, State.settle_begun settled code m needs no_status]

/-- Settles O51. -/
theorem commandsAreRefusedInOrder : Obligations.CommandsAreRefusedInOrder := by
  intro s c w l code ready
  have settled := (State.ready_iff.1 ready).2
  have running := (State.ready_iff.1 ready).1
  refine ⟨fun busy writes wf => ?overrun, fun zero => ?ignored, fun idle stand =>
    ⟨fun written part => ?malformed, fun above => ?unknown, fun active inactive => ?wrongState,
      fun boot halted => ?start⟩⟩
  case overrun =>
    obtain ⟨k, acts, event⟩ := exec_of_writesCommand s writes wf
    have busy : s.command.isSome = true := Option.isSome_iff_ne_none.2 busy
    rw [event, s.event_running _ running, State.commandWritten, if_neg acts, if_pos busy]
    exact congrArg Host.Outcome.next (State.settle_changeCauses settled _)
  case ignored =>
    have ignored : s.commandWord 15 w = s := by
      rw [s.commandWord_of_written (by decide) w, commandOf_eq_ignored_iff.2 ⟨rfl, zero⟩]
      exact if_pos rfl
    rw [exec_of_ready (f := fun t => t.commandWord 15 w) ready rfl rfl]
    simp only [ignored, State.settle_of_settled settled]
  case malformed =>
    have event : exec (.malformed l w) s = .next (s.commandWord l w).settle :=
      exec_of_ready (f := fun t => t.commandWord l w) ready rfl rfl
    rw [event, s.commandWord_of_written written, commandOf_of_part w part, s.commandWritten_of_idle _ idle (by simp)]
    have taken : (s.setReporting true).takeCommand .malformed = (s.setReporting true).finalResult 0 .malformed 0 := rfl
    rw [taken, s.settle_finalResult settled idle (s.no_command_hold stand idle)]
  case unknown =>
    have event : exec (.unknownCommand w) s = .next (s.commandWord 15 w).settle :=
      exec_of_ready (f := fun t => t.commandWord 15 w) ready rfl rfl
    rw [event, s.commandWord_of_written (by decide), commandOf_of_unknown above,
      s.commandWritten_of_idle _ idle (by simp)]
    have taken : (s.setReporting true).takeCommand (.unknown (codeField w)) =
        (s.setReporting true).finalResult ((codeField w).setWidth 8) .unknownCommand 0 := rfl
    rw [taken, s.settle_finalResult settled idle (s.no_command_hold stand idle)]
  case wrongState =>
    obtain ⟨k, acts, rfl, row, inside, refused⟩ := command_of_activeCode active
    exact exec_of_completed ready idle stand row inside acts (refused _ inactive)
  case start =>
    exact exec_of_completed ready idle stand (k := .start) rfl rfl (by simp) (if_neg (not_or.2 ⟨boot, halted⟩))

/-! ### INVALIDATE and INVALIDATE_ALL -/

theorem State.namesDescriptor_of_table {s : State} {g : TableGeometry} (table : s.table = some g) (arg : Arg) :
    s.namesDescriptor arg = decide (arg.toNat < g.count) := by
  simp [State.namesDescriptor, table]

theorem State.namesDescriptor_of_no_table {s : State} (table : s.table = none) (arg : Arg) :
    s.namesDescriptor arg = false := by
  simp [State.namesDescriptor, table]

theorem State.takeInvalidate_of_unnamed {s : State} {arg : Arg} (unnamed : s.namesDescriptor arg = false) :
    s.takeInvalidate arg = s.finalResult 6 .badArgument 0 := if_neg (by simp [unnamed])

/-- The marks of R59 on the windows that satisfy a test. -/
def State.marked (s : State) (f : Window → Bool) : State := { s with
  engines := s.engines.map fun u => { u with windows := u.windows.map fun v => if f v then v.mark else v } }

theorem Window.mark_eq (v : Window) : v.mark = match v.state with
    | .valid k d => (⟨.stale k d, v.rotation⟩ : Window)
    | .fetching u k _ => ⟨.fetching u k true, v.rotation⟩
    | .stale _ _ => v
    | .empty => v := by
  obtain ⟨state, rotation⟩ := v
  cases state <;> rfl

/-- Settles O56. -/
theorem invalidatesAreTaken : Obligations.InvalidatesAreTaken := by
  intro s arg g ready idle active stand marked
  have settled := (State.ready_iff.1 ready).2
  have marks : Window.mark = marked := funext Window.mark_eq
  have take : (s.setReporting true).takeCommand (.invalidate arg) = (s.setReporting true).takeInvalidate arg :=
    if_pos active
  have take_all : (s.setReporting true).takeCommand .invalidateAll = (s.setReporting true).takeInvalidateAll :=
    if_pos active
  refine ⟨fun table => ?_, fun table outside => ?_, fun table inside => ?_, ?_⟩
  · exact exec_of_completed ready idle stand (k := .invalidate arg) rfl rfl (by simp)
      (take.trans (State.takeInvalidate_of_unnamed (State.namesDescriptor_of_no_table table arg)))
  · have unnamed : s.namesDescriptor arg = false := by
      rw [State.namesDescriptor_of_table table, decide_eq_false (Nat.not_lt.2 outside)]
    exact exec_of_completed ready idle stand (k := .invalidate arg) rfl rfl (by simp)
      (take.trans (State.takeInvalidate_of_unnamed unnamed))
  · have named : s.namesDescriptor arg = true := by
      rw [State.namesDescriptor_of_table table, decide_eq_true inside]
    have taken : (s.setReporting true).takeCommand (.invalidate arg) =
        ((s.marked fun v => v.holdsSelector arg.toNat).setReporting true).finalResult 6 .ok 0 := by
      rw [take]
      exact if_pos named
    rw [exec_of_completed_on ready idle stand (k := .invalidate arg) rfl rfl (by simp) taken settled rfl
      fun _ unheld => unheld, ← marks]
    rfl
  · rw [exec_of_completed_on (u := s.marked fun _ => true) ready idle stand (k := .invalidateAll) rfl rfl (by simp)
      take_all settled rfl fun _ unheld => unheld, ← marks]
    rfl

end Sys2Proof.Machine

/-! The commands that become the command in progress (R37, R85, R98, R161, R168), CLEAR_WINDOW (R42), and the words
CONSUMER, ENABLE and ACKNOWLEDGE (R138, R171, R172). -/

namespace Sys2Proof.Machine

section
variable {s : State}

/-! ### START -/

theorem PortUnit.settled_setHold (u : PortUnit) (h : Option Hold) :
    ({ u with hold := h } : PortUnit).settled = u.settled :=
  rfl

theorem State.unit_portsUnheld (s : State) (p : Port) : s.portsUnheld.get p = { s.unit p with hold := none } :=
  s.ports.get_map p _

/-- A change of the operating state to one that is not STOPPING leaves nothing due. -/
theorem State.settled_of_unheld (settled : s.settled = true) {op : OpState} (op_ne : op ≠ .stopping) :
    ({ s with opState := op, ports := s.portsUnheld } : State).settled = true := by
  obtain ⟨ports, -, irq, unchanged⟩ := s.settled_iff.1 settled
  refine State.settled_iff _ |>.2 ⟨fun p => ?_, State.stopDue_of_not_stopping op_ne, irq, unchanged⟩
  rw [State.unit, State.unit_portsUnheld]
  exact ports p

theorem State.takeStart_of_idle (idle : s.command = none) (moves : s.opState ≠ .loading) :
    (s.setReporting true).takeStart =
      ({ s with opState := .loading, ports := s.portsUnheld } : State).begun 1 (.start s.opState none)
        [s.readRequest .startRead 0x20 16, s.readRequest .startRead 0x60 12] := by
  have begun : (s.setReporting true).begin .start (.start s.opState none) = s.begun 1 (.start s.opState none) [] :=
    State.begin_of_idle idle .start _
  have take : (s.setReporting true).takeStart = (((s.begun 1 (.start s.opState none) []).changeOp .loading).raiseRead
      .startRead 0x20 16).raiseRead .startRead 0x60 12 := by
    rw [← begun]
    rfl
  have moves_begun : (s.begun 1 (.start s.opState none) []).opState ≠ .loading := moves
  rw [take, State.changeOp_eq, if_neg moves_begun]
  simp only [State.begun, State.raiseRead, State.raiseCtl_eq, Bool.true_or, List.append_assoc, List.cons_append,
    List.nil_append]
  rfl

/-- Settles O52. -/
theorem startIsTaken : Obligations.StartIsTaken := by
  intro s ready idle taken_in
  have moves : s.opState ≠ .loading := by rcases taken_in with op | op <;> simp [op]
  have settled := State.settled_of_unheld (op := .loading) (State.ready_iff.1 ready).2 (by simp)
  have taken : (s.setReporting true).takeCommand .start =
      ({ s with opState := .loading, ports := s.portsUnheld } : State).begun 1 (.start s.opState none)
        [s.readRequest .startRead 0x20 16, s.readRequest .startRead 0x60 12] :=
    (if_pos taken_in).trans (State.takeStart_of_idle idle moves)
  exact exec_of_begun ready idle rfl rfl (by simp) taken settled rfl

/-! ### LOAD_WINDOW and CLEAR_WINDOW -/

section
variable {e : Engine} {w : Index8}

/-- A window set FETCHING for a LOAD, with a fetch it waited for cancelled and its own raised (R38). -/
def State.loading (s : State) (e : Engine) (w : Index8) (k : Selector) : State :=
  { s with
    engines := s.engines.set e { s.eng e with
      windows := (s.eng e).windows.set w { s.window e w with state := .fetching .load k false } }
    fetches := (s.fetches.map fun f => if f.engine = e ∧ f.window = w then { f with current := false } else f) ++
      [⟨e, w, k, .load, true⟩] }

theorem State.takeLoadWindow_of_named {k : Selector} {g : TableGeometry} {arg : Arg} (idle : s.command = none)
    (table : s.table = some g) (inside : arg.toNat < g.count) (named : arg.setWidth 8 = k) :
    (s.setReporting true).takeLoadWindow (.engine e) w arg =
      (s.loading e w k).begun 3 (.loadWindow e w) [fetchRequest g k.toNat] := by
  have names : (s.setReporting true).namesDescriptor arg = true := by
    rw [State.namesDescriptor_of_table (by exact table), decide_eq_true inside]
  have take : (s.setReporting true).takeLoadWindow (.engine e) w arg =
      ((s.setReporting true).begin (.loadWindow (.engine e) w arg) (.loadWindow e w)).loadInto e w k := by
    rw [← named]
    exact if_pos names
  rw [take, State.begin_of_idle idle, State.loadInto, State.raiseFetch_of_table (g := g) e w k .load (by exact table)]
  simp only [State.begun, State.cancelFetch, State.setFetches, State.setWindow_eq, List.append_assoc, List.cons_append,
    List.nil_append]
  rfl

theorem State.endWindowHold_eq (s : State) (e : Engine) (w : Index8) : s.endWindowHold e w = { s with
    ports := s.ports.set (.engine e) { s.unit (.engine e) with
      hold := if s.holdOf (.engine e) = some (.window w) then none else s.holdOf (.engine e) } } := by
  unfold State.endWindowHold
  split
  · rfl
  · have kept : s.ports.set (.engine e) (s.unit (.engine e)) = s.ports := s.ports.set_get_same (.engine e)
    exact congrArg (fun v => { s with ports := v }) kept.symm

/-- A window emptied, with its fetch cancelled and the hold on it ended (R42, R43, R62). -/
theorem State.emptyWindow_eq (s : State) (e : Engine) (w : Index8) : s.emptyWindow e w = { s with
    engines := s.engines.set e { s.eng e with windows := (s.eng e).windows.set w ⟨.empty, 0⟩ }
    fetches := s.fetches.map fun f => if f.engine = e ∧ f.window = w then { f with current := false } else f
    ports := s.ports.set (.engine e) { s.unit (.engine e) with
      hold := if s.holdOf (.engine e) = some (.window w) then none else s.holdOf (.engine e) } } := by
  rw [State.emptyWindow, State.endWindowHold_eq]
  rfl

theorem State.settled_emptyWindow (settled : s.settled = true) : (s.emptyWindow e w).settled = true := by
  rw [State.emptyWindow, State.endWindowHold]
  split
  · exact State.settled_setHold (s := (s.setWindow e w Window.reset).cancelFetch e w) settled none
  · exact settled

theorem State.holdOf_emptyWindow_unheld {f : Hold → Bool} (p : Port) (unheld : (s.holdOf p).any f = false) :
    ((s.emptyWindow e w).holdOf p).any f = false := by
  rw [State.emptyWindow_eq, State.holdOf, State.unit]
  by_cases same : p = .engine e
  · subst same
    rw [PerPort.get_set_same]
    dsimp only
    split
    · rfl
    · exact unheld
  · rw [PerPort.get_set_other _ _ _ _ same]
    exact unheld

end

/-- Settles O54. -/
theorem windowLoadsAndClears : Obligations.WindowLoadsAndClears := by
  refine ⟨fun s p e w arg k g ready idle active stand => ⟨fun unnamed => ?_, fun table outside => ?_,
    fun table inside => ?_⟩,
    fun s e w ready idle active stand => ⟨?_, ?_⟩⟩
  · refine exec_of_completed ready idle stand (k := .loadWindow p w arg) rfl rfl (by simp) ((if_pos active).trans ?_)
    cases p with
    | p0 => rfl
    | engine e =>
      exact if_neg (Bool.not_eq_true _ ▸ State.namesDescriptor_of_no_table (unnamed.resolve_left (by simp)) arg)
  · refine exec_of_completed ready idle stand (k := .loadWindow p w arg) rfl rfl (by simp) ((if_pos active).trans ?_)
    cases p with
    | p0 => rfl
    | engine e =>
      have names : s.namesDescriptor arg = false := by
        rw [State.namesDescriptor_of_table table, decide_eq_false (Nat.not_lt.2 outside)]
      exact if_neg (Bool.not_eq_true _ ▸ names)
  · have named : (k.setWidth 21 : Arg).setWidth 8 = k := BitVec.setWidth_setWidth_of_le k (by decide)
    have value : (k.setWidth 21 : Arg).toNat = k.toNat := by
      rw [BitVec.toNat_setWidth]
      exact Nat.mod_eq_of_lt (Nat.lt_of_lt_of_le k.isLt (by decide))
    exact exec_of_begun (u := s.loading e w k) (k := .loadWindow (.engine e) w (k.setWidth 21)) ready idle rfl rfl
      (by simp) ((if_pos active).trans (State.takeLoadWindow_of_named idle table (by rw [value]; exact inside) named))
      (State.ready_iff.1 ready).2 rfl
  · exact exec_of_completed ready idle stand (k := .clearWindow .p0 w) rfl rfl (by simp) (if_pos active)
  · have emptied : (s.setReporting true).emptyWindow e w = (s.emptyWindow e w).setReporting true := by
      rw [State.emptyWindow_eq, State.emptyWindow_eq]
      rfl
    have taken : (s.setReporting true).takeCommand (.clearWindow (.engine e) w) =
        ((s.emptyWindow e w).setReporting true).finalResult 4 .ok 0 := by
      rw [← emptied]
      exact if_pos active
    rw [exec_of_completed_on ready idle stand (k := .clearWindow (.engine e) w) rfl rfl (by simp) taken
      (State.settled_emptyWindow (State.ready_iff.1 ready).2) (by rw [State.emptyWindow_eq])
      State.holdOf_emptyWindow_unheld, State.emptyWindow_eq]

/-! ### CONFIGURE_PORT, RELOAD_MAP and DRAIN -/

theorem State.takeConfigurePort_of_idle (idle : s.command = none) (p : Port) :
    (s.setReporting true).takeConfigurePort p =
      s.begun 9 (.configurePort p) [s.readRequest .portRead (0x34 + 4 * (portCode p).toNat) 1] := by
  rw [State.takeConfigurePort, State.begin_of_idle idle]
  simp only [State.begun, State.raiseRead, State.raiseCtl_eq, List.append_assoc, List.cons_append, List.nil_append]
  rfl

theorem State.takeReloadMap_of_idle (idle : s.command = none) :
    (s.setReporting true).takeReloadMap =
      s.begun 10 (.reloadMap none) [s.readRequest .reloadRead 0x30 1, s.readRequest .reloadRead 0x50 16] := by
  rw [State.takeReloadMap, State.begin_of_idle idle]
  simp only [State.begun, State.raiseRead, State.raiseCtl_eq, List.append_assoc, List.cons_append, List.nil_append]
  rfl

theorem State.bufferEmpty_iff : s.bufferEmpty = true ↔ ∀ i, s.buffer.get i = none := by
  simp [State.bufferEmpty, Eight.toList_eq_map_get]

theorem State.watching_iff : s.watching = true ↔ ∃ i v, s.buffer.get i = some v ∧ v.mark = true := by
  simp only [State.watching, State.postedEntries, List.any_eq_true, List.mem_filterMap, id_eq,
    exists_eq_right, Eight.mem_toList]
  exact ⟨fun ⟨v, ⟨i, held⟩, mark⟩ => ⟨i, v, held, mark⟩, fun ⟨i, v, held, mark⟩ => ⟨v, ⟨i, held⟩, mark⟩⟩

/-- Every entry is watched where the marks of all are set (R98). -/
theorem State.watching_setMarks : (s.setMarks true).watching = !s.bufferEmpty := by
  rw [Bool.eq_iff_iff, State.watching_iff, Bool.not_eq_true', ← Bool.not_eq_true, State.bufferEmpty_iff, not_forall]
  have entry (i : Index8) : (s.setMarks true).buffer.get i = (s.buffer.get i).map fun v => { v with mark := true } :=
    s.buffer.get_map i _
  refine exists_congr fun i => ?_
  rw [entry]
  cases s.buffer.get i <;> simp

theorem Eight.map_eq_self {α : Type} {f : α → α} {b : Eight α} (same : ∀ i, f (b.get i) = b.get i) : b.map f = b := by
  obtain ⟨x0, x1, x2, x3, x4, x5, x6, x7⟩ := b
  exact congr (congr (congr (congr (congr (congr (congr (congrArg Eight.mk (same 0)) (same 1)) (same 2)) (same 3))
    (same 4)) (same 5)) (same 6)) (same 7)

theorem State.setMarks_of_empty (empty : s.bufferEmpty = true) (b : Bool) : s.setMarks b = s := by
  have kept : (s.buffer.map fun o => o.map fun v => { v with mark := b }) = s.buffer :=
    Eight.map_eq_self fun i => by rw [State.bufferEmpty_iff.1 empty i]; rfl
  rw [State.setMarks, kept]
  rfl

/-- A final result where no hold is one of a command. -/
theorem State.finalResult_of_unheld (unheld : ∀ p, (s.holdOf p).any Hold.ofCommand = false) (code : BitVec 8)
    (o : CommandOutcome) (detail : Nat) : s.finalResult code o detail = { s with
      ctl := s.ctlUnwaiting ++ [s.resultRequest code o detail]
      command := none
      causes := { s.causes with done := true }
      statusChanged := s.statusChanged || s.statusWaiting || s.command.isSome || !s.causes.done } := by
  have kept : (s.ports.map fun u => if u.hold.any Hold.ofCommand then { u with hold := none } else u) = s.ports :=
    congrArg State.ports (s.endHolds_of_none _ unheld)
  rw [State.finalResult_eq, kept]

theorem State.ctlUnwaiting_begun (code : BitVec 8) (k : Command) :
    (s.begun code k []).ctlUnwaiting = s.ctlUnwaiting ++ [s.resultRequest code .inProgress 0] := by
  simp only [State.ctlUnwaiting, State.begun, List.filter_append, List.filter_filter, Bool.and_self]
  rfl

/-- The event of a command that becomes the command in progress and completes at once, with no field that STOP or the
Port Units wait for changed. -/
theorem State.settle_finalResult_begun (settled : s.settled = true)
    (unheld : ∀ p, (s.holdOf p).any Hold.ofCommand = false) (code : BitVec 8) (k : Command) (o : CommandOutcome) :
    ((s.begun code k []).finalResult code o 0).settle = { s with
      ctl := s.ctlUnwaiting ++ [s.resultRequest code .inProgress 0, s.resultRequest code o 0, s.statusRequest]
      command := none
      causes := { s.causes with done := true }
      irqAsserted := s.irqAsserted || s.enables.done
      reporting := true } := by
  obtain ⟨-, not_due, irq, unchanged⟩ := s.settled_iff.1 settled
  have result : (s.begun code k []).finalResult code o 0 = { s.begun code k [] with
      ctl := s.ctlUnwaiting ++ [s.resultRequest code .inProgress 0] ++ [s.resultRequest code o 0]
      command := none
      causes := { s.causes with done := true } } := by
    rw [State.finalResult_of_unheld (s := s.begun code k []) unheld, State.ctlUnwaiting_begun]
    simp only [State.begun, Bool.true_or]
    rfl
  obtain ⟨t, ended⟩ : ∃ t, t = (s.begun code k []).finalResult code o 0 := ⟨_, rfl⟩
  have level : t.irqLevel = (s.irqAsserted || s.enables.done) := by
    rw [ended, result, irq]
    exact s.irqLevel_setCauses_done
  have none_waits : t.statusWaiting = false := by
    rw [ended, result]
    simp [State.statusWaiting, State.ctlUnwaiting, State.resultRequest, CtlRequest.isStatus]
  have still_not_due : t.stopDue = false := by
    rw [ended, result]
    exact State.stop_not_due_of_same (s := s) not_due rfl rfl rfl rfl rfl rfl rfl
  have answered : t.ports.map PortUnit.answer = s.ports := by
    rw [ended, result]
    exact State.map_answer_of_settled (s := s) settled
  rw [← ended, State.settle_of_noted still_not_due (by rw [ended, result]; rfl) (by rw [ended, result]; rfl) none_waits,
    level, answered, ended, result]
  simp only [State.begun, List.append_assoc, List.cons_append, List.nil_append, ← unchanged]
  rfl

theorem State.takeDrain_of_idle (idle : s.command = none) : (s.setReporting true).takeDrain =
    if (s.setMarks true).watching then (s.setMarks true).begun 11 .drain []
    else ((s.setMarks true).begun 11 .drain []).finalResult 11 .ok 0 := by
  have begun : ((s.setReporting true).setMarks true).begin .drain .drain = (s.setMarks true).begun 11 .drain [] :=
    State.begin_of_idle (s := s.setMarks true) idle .drain .drain
  rw [State.takeDrain, begun]
  rfl

/-- Settles O58. -/
theorem longCommandsAreTaken : Obligations.LongCommandsAreTaken := by
  intro s p ready idle active stand
  have settled := (State.ready_iff.1 ready).2
  have drain : (s.setReporting true).takeCommand .drain = (s.setReporting true).takeDrain := if_pos active
  refine ⟨?_, ?_, fun occupied => ?_, fun empty => ?_⟩
  · exact exec_of_begun ready idle (k := .configurePort p) rfl rfl (by simp)
      ((if_pos active).trans (State.takeConfigurePort_of_idle idle p)) settled rfl
  · exact exec_of_begun ready idle (k := .reloadMap) rfl rfl (by simp)
      ((if_pos active).trans (State.takeReloadMap_of_idle idle)) settled rfl
  · have marked_settled : (s.setMarks true).settled = true := by
      obtain ⟨ports, -, irq, unchanged⟩ := s.settled_iff.1 settled
      exact State.settled_iff _ |>.2 ⟨ports, State.stopDue_of_not_stopping
        (by rw [State.setMarks, State.setBuffer, active]; simp), irq, unchanged⟩
    have taken : (s.setReporting true).takeCommand .drain = (s.setMarks true).begun 11 .drain [] := by
      rw [drain, State.takeDrain_of_idle idle, State.watching_setMarks, occupied]
      rfl
    exact exec_of_begun ready idle (k := .drain) rfl rfl (by simp) taken marked_settled rfl
  · have taken : (s.setReporting true).takeCommand .drain = (s.begun 11 .drain []).finalResult 11 .ok 0 := by
      rw [drain, State.takeDrain_of_idle idle, State.watching_setMarks, empty, State.setMarks_of_empty empty]
      rfl
    rw [exec_of_command ready (k := .drain) rfl rfl idle (by simp), taken,
      State.settle_finalResult_begun settled (s.no_command_hold stand idle), ← idle]

end

end Sys2Proof.Machine

/-! The words CONSUMER, ENABLE and ACKNOWLEDGE (R138, R171, R172), and STOP (R164, R165). -/

namespace Sys2Proof.Machine

section
variable {s t : State}

/-- The end of an event that leaves the Port Units as they were, and notes a change or not (R169, R173). -/
theorem State.settle_noted {b : Bool} (settled : s.settled = true) (ports : t.ports = s.ports)
    (not_due : ({ t with statusChanged := b } : State).stopDue = false) (noted : t.statusChanged = false) :
    ({ t with statusChanged := b } : State).settle = { t with
      irqAsserted := t.irqLevel
      ctl := t.ctl ++ if b && t.reporting && !t.statusWaiting then [t.statusRequest] else [] } := by
  have answered : t.ports.map PortUnit.answer = t.ports := by rw [ports, State.map_answer_of_settled settled]
  rw [State.settle_of_stop_not_due _ not_due, State.concluded, answered, ← noted]
  rfl

/-! ### ENABLE and ACKNOWLEDGE -/

/-- The event of a write that is misuse and changes nothing else. -/
theorem State.settle_setMisuse (settled : s.settled = true) :
    s.setMisuse.settle = s.afterCauses { s.causes with misuse := true } := State.settle_changeCauses settled _

theorem State.settle_setEnables (settled : s.settled = true) (v : Enables) :
    (s.setEnables v).settle = { s with enables := v, irqAsserted := (s.setEnables v).irqLevel } := by
  obtain ⟨-, not_due, -, unchanged⟩ := s.settled_iff.1 settled
  have still_not_due : (s.setEnables v).stopDue = false :=
    State.stop_not_due_of_same not_due rfl rfl rfl rfl rfl rfl rfl
  have noted : (s.setEnables v).statusChanged = false := unchanged
  have answered : (s.setEnables v).ports.map PortUnit.answer = s.ports := State.map_answer_of_settled (s := s) settled
  rw [State.settle_of_stop_not_due _ still_not_due, State.concluded, answered, noted, ← unchanged]
  simp only [unchanged, Bool.false_and, Bool.false_eq_true, if_false, List.append_nil]
  rfl

theorem exec_of_word {c : Instr} {f : State → Lanes → Word → State} {l : Lanes} {w : Word} {v : State}
    (ready : s.ready = true) (row : eventOf c = some fun u => f u l w) (inside : presentsRequest c = false)
    (acts : f s l w = v) : exec c s = .next v.settle := by
  rw [exec_of_ready ready row inside, acts]

/-- Settles O60. -/
theorem enableAndAcknowledgeAreTaken : Obligations.EnableAndAcknowledgeAreTaken := by
  intro s l w ready misused
  have settled := (State.ready_iff.1 ready).2
  refine ⟨⟨(s.setEnables (enablesOf w)).settle, ?_, ?_⟩, fun written part => ?_, ?_, fun written part => ?_⟩
  · exact exec_of_word (c := .enable 15 w) (f := State.enableWord) ready rfl rfl
      ((if_neg (by decide)).trans (if_pos rfl))
  · rw [State.settle_setEnables settled]
    rfl
  · rw [exec_of_word (c := .enable l w) (f := State.enableWord) ready rfl rfl ((if_neg written).trans (if_neg part)),
      State.settle_setMisuse settled]
  · rw [exec_of_word (c := .acknowledge 15 w) (f := State.acknowledgeWord) ready rfl rfl
      ((if_neg (by decide)).trans (if_pos rfl)), State.settle_changeCauses settled]
    rfl
  · rw [exec_of_word (c := .acknowledge l w) (f := State.acknowledgeWord) ready rfl rfl
      ((if_neg written).trans (if_neg part)), State.settle_setMisuse settled]

/-! ### The ring write of the head -/

/-- The conditions under which the ring write of the head is raised (R134). -/
def State.ringWriteDue (s : State) : Bool := s.opState.records && !s.writingHead && !s.ringFull

/-- The record write of a record at the producer's slot. -/
def State.recordRequest (s : State) (g : RingGeometry) (r : FaultRecord) : CtlRequest :=
  ⟨.recordWrite, addBytes g.base (16 * s.producer), 4, (recordWords r).map fun w => ⟨w, 15⟩, false⟩

theorem State.raiseRingWrite_of_due {h : Staged} {rest : List Staged} {g : RingGeometry} (staged : s.staged = h :: rest)
    (ring : s.ring = some g) (due : s.ringWriteDue = true) : s.raiseRingWrite = { s with
      staged := { h with writing := true } :: rest, ctl := s.ctl ++ [s.recordRequest g h.record] } := by
  unfold State.raiseRingWrite
  split
  · rename_i h' rest' g' staged' ring'
    cases staged.symm.trans staged'
    cases ring.symm.trans ring'
    exact if_pos due
  · rename_i none_due
    exact (none_due h rest g staged ring).elim

theorem State.raiseRingWrite_of_not_due (not_due : s.ringWriteDue = false) : s.raiseRingWrite = s := by
  unfold State.raiseRingWrite
  split
  · exact if_neg (by rw [← State.ringWriteDue, not_due]; simp)
  · rfl

theorem State.raiseRingWrite_of_none_staged (staged : s.staged = []) : s.raiseRingWrite = s := by
  unfold State.raiseRingWrite
  rw [staged]

theorem State.ringFull_of_no_ring (ring : s.ring = none) : s.ringFull = true := by
  simp [State.ringFull, ring]

/-- The two things that raising the ring write of the head can do. -/
theorem State.raiseRingWrite_cases (s : State) :
    (s.raiseRingWrite = s ∧ (s.ringWriteDue = false ∨ s.staged = [])) ∨
      ∃ h rest g, s.staged = h :: rest ∧ s.ring = some g ∧ s.ringWriteDue = true ∧ s.raiseRingWrite = { s with
        staged := { h with writing := true } :: rest, ctl := s.ctl ++ [s.recordRequest g h.record] } := by
  cases due : s.ringWriteDue with
  | false => exact .inl ⟨State.raiseRingWrite_of_not_due due, .inl rfl⟩
  | true =>
    by_cases staged : s.staged = []
    · exact .inl ⟨State.raiseRingWrite_of_none_staged staged, .inr staged⟩
    · obtain ⟨h, rest, staged⟩ := List.exists_cons_of_ne_nil staged
      rcases Option.eq_none_or_eq_some s.ring with ring | ⟨g, ring⟩
      · simp only [State.ringWriteDue, Bool.and_eq_true, Bool.not_eq_true'] at due
        obtain ⟨-, not_full⟩ := due
        cases (State.ringFull_of_no_ring ring).symm.trans not_full
      · exact .inr ⟨h, rest, g, staged, ring, rfl, State.raiseRingWrite_of_due staged ring due⟩

theorem State.statusWaiting_raiseRingWrite : s.raiseRingWrite.statusWaiting = s.statusWaiting := by
  rcases s.raiseRingWrite_cases with ⟨same, -⟩ | ⟨h, rest, g, -, -, -, raised⟩
  · rw [same]
  · rw [raised, State.statusWaiting, State.statusWaiting, List.any_append]
    simp [State.recordRequest, CtlRequest.isStatus]

theorem State.ports_raiseRingWrite (s : State) : s.raiseRingWrite.ports = s.ports := by
  rw [s.raiseRingWrite_frame]

theorem State.reporting_raiseRingWrite (s : State) : s.raiseRingWrite.reporting = s.reporting := by
  rw [s.raiseRingWrite_frame]

theorem State.statusChanged_raiseRingWrite (s : State) : s.raiseRingWrite.statusChanged = s.statusChanged := by
  rw [s.raiseRingWrite_frame]

theorem State.statusRequest_raiseRingWrite (s : State) : s.raiseRingWrite.statusRequest = s.statusRequest := by
  rw [s.raiseRingWrite_frame]
  rfl

/-- The note of a change takes no part in it. -/
theorem State.raiseRingWrite_setStatusChanged (b : Bool) :
    ({ s with statusChanged := b } : State).raiseRingWrite = { s.raiseRingWrite with statusChanged := b } := by
  rcases s.raiseRingWrite_cases with ⟨same, not_due | none_staged⟩ | ⟨h, rest, g, staged, ring, due, raised⟩
  · rw [same, State.raiseRingWrite_of_not_due (by exact not_due)]
  · rw [same, State.raiseRingWrite_of_none_staged (by exact none_staged)]
  · rw [raised, State.raiseRingWrite_of_due (h := h) (rest := rest) (g := g) (by exact staged) (by exact ring)
      (by exact due)]
    rfl

/-! ### CONSUMER -/

theorem unconsumed_eq {n a b : Nat} (a_lt : a < n) (b_lt : b < n) :
    unconsumed n a b = if b ≤ a then a - b else a + n - b := by
  unfold unconsumed
  split
  · rw [show a + n - b = a - b + n by omega, Nat.add_mod_right, Nat.mod_eq_of_lt (by omega)]
  · exact Nat.mod_eq_of_lt (by omega)

/-- A consumer that does not pass the producer leaves no more records unconsumed. -/
theorem unconsumed_le_of_taken {n p c v : Nat} (p_lt : p < n) (c_lt : c < n) (v_lt : v < n)
    (taken : unconsumed n v c ≤ unconsumed n p c) : unconsumed n p v ≤ unconsumed n p c := by
  rw [unconsumed_eq v_lt c_lt, unconsumed_eq p_lt c_lt] at taken
  rw [unconsumed_eq p_lt v_lt, unconsumed_eq p_lt c_lt]
  split at taken <;> split at taken <;> split <;> omega

theorem State.takesConsumer_iff {g : RingGeometry} {v : Nat} (ring : s.ring = some g) : s.takesConsumer v = true ↔
    v < g.size ∧ unconsumed g.size v s.consumer ≤ unconsumed g.size s.producer s.consumer := by
  simp [State.takesConsumer, ring]

theorem State.indicesInRing_iff {g : RingGeometry} (ring : s.ring = some g) :
    s.indicesInRing = true ↔ 0 < g.size ∧ s.producer < g.size ∧ s.consumer < g.size := by
  simp [State.indicesInRing, ring, and_assoc]

theorem State.ringFull_iff {g : RingGeometry} (ring : s.ring = some g) :
    s.ringFull = true ↔ unconsumed g.size s.producer s.consumer = g.size - 1 := by
  simp [State.ringFull, ring]

/-- Consuming does not fill the ring. -/
theorem State.ringFull_of_consumed {g : RingGeometry} {v : Nat} (ring : s.ring = some g)
    (inside : s.indicesInRing = true) (taken : s.takesConsumer v = true)
    (full : ({ s with consumer := v } : State).ringFull = true) : s.ringFull = true := by
  obtain ⟨size_pos, producer_lt, consumer_lt⟩ := (State.indicesInRing_iff ring).1 inside
  obtain ⟨v_lt, not_passed⟩ := (State.takesConsumer_iff ring).1 taken
  have no_more := unconsumed_le_of_taken producer_lt consumer_lt v_lt not_passed
  rw [State.ringFull_iff ring]
  have all : unconsumed g.size s.producer v = g.size - 1 :=
    (State.ringFull_iff (s := { s with consumer := v }) ring).1 full
  have below : unconsumed g.size s.producer s.consumer < g.size := Nat.mod_lt _ size_pos
  omega

/-- Consuming, with the ring write of the head raised where it is due, does not make STOP due: a record that waits for
a full ring waited for it before. -/
theorem State.stop_not_due_of_consumed {g : RingGeometry} {v : Nat} (ring : s.ring = some g)
    (inside : s.indicesInRing = true) (taken : s.takesConsumer v = true) (not_due : s.stopDue = false) :
    ({ s with consumer := v } : State).raiseRingWrite.stopDue = false := by
  rcases ({ s with consumer := v } : State).raiseRingWrite_cases with ⟨same, unraised⟩ | ⟨h, rest, g', -, -, -, raised⟩
  · rw [same, ← Bool.not_eq_true]
    intro due
    have full_of_full := State.ringFull_of_consumed ring inside taken
    simp only [State.stopDue, Bool.and_eq_true, Bool.or_eq_true, Bool.not_eq_true', decide_eq_true_eq] at due
    obtain ⟨⟨⟨stopping, idle⟩, empty⟩, none_staged | ⟨unwritten, full⟩⟩ := due
    all_goals
      have due_before : s.stopDue = true := by
        simp only [State.stopDue, Bool.and_eq_true, Bool.or_eq_true, Bool.not_eq_true', decide_eq_true_eq]
        refine ⟨⟨⟨stopping, idle⟩, empty⟩, ?_⟩
        first
          | exact .inl none_staged
          | exact .inr ⟨unwritten, full_of_full full⟩
      cases due_before.symm.trans not_due
  · have writing : ({ s with consumer := v } : State).raiseRingWrite.writingHead = true := by
      rw [raised]
      rfl
    have nonempty : ({ s with consumer := v } : State).raiseRingWrite.staged.isEmpty = false := by
      rw [raised]
      rfl
    simp [State.stopDue, writing, nonempty]

theorem State.consumerWord_of_records {l : Lanes} (w : Word) (records : s.opState = .active ∨ s.opState = .stopping)
    (written : l ≠ 0) : s.consumerWord l w = if l = 15 then s.consume (indexField w) else s.setMisuse := by
  have recording : s.opState.records = true := by rcases records with op | op <;> rw [op] <;> rfl
  rw [State.consumerWord, if_neg written, recording]
  rfl

theorem State.consumerWord_ignored (l : Lanes) (w : Word) (active : s.opState ≠ .active)
    (stopping : s.opState ≠ .stopping) : s.consumerWord l w = s := by
  have recording : s.opState.records = false := by
    cases op : s.opState with
    | active => exact absurd op active
    | stopping => exact absurd op stopping
    | boot | loading | halted => rfl
  rw [State.consumerWord, recording]
  simp

/-- A consumer value that is taken (R138). -/
theorem State.consume_of_taken {v : Nat} (taken : s.takesConsumer v = true) (unchanged : s.statusChanged = false) :
    s.consume v = { ({ s with consumer := v } : State).raiseRingWrite with
      statusChanged := decide (s.producer = s.consumer) != decide (s.producer = v) } := by
  have moved : (decide (s.producer ≠ s.producer) || (decide (s.producer ≠ v) != s.queueCause)) =
      (decide (s.producer = s.consumer) != decide (s.producer = v)) := by
    simp [State.queueCause, bne_comm (a := decide (s.producer = v))]
  rw [State.consume, if_pos taken, State.changeIndices_eq, unchanged, Bool.false_or, moved,
    ← State.raiseRingWrite_setStatusChanged]

/-- Settles O59. -/
theorem consumerIsTaken : Obligations.ConsumerIsTaken := by
  intro s l w g ready v misused consumed queueMoved
  obtain ⟨-, settled⟩ := State.ready_iff.1 ready
  obtain ⟨-, not_due, -, unchanged⟩ := s.settled_iff.1 settled
  have word {m : Lanes} {u : State} (acts : s.consumerWord m w = u) : exec (.consumer m w) s = .next u.settle :=
    exec_of_word (c := .consumer m w) (f := State.consumerWord) ready rfl rfl acts
  refine ⟨fun active stopping => ?_, fun records ring => ⟨fun written part => ?_, fun outside => ?_, fun passes => ?_,
    fun inside not_passed indices => ?taken⟩⟩
  · rw [word (State.consumerWord_ignored l w active stopping), State.settle_of_settled settled]
  · rw [word (State.consumerWord_of_records w records written), if_neg part, State.settle_setMisuse settled]
  · have refused : ¬ s.takesConsumer (indexField w) = true := fun taken =>
      Nat.not_lt.2 outside ((State.takesConsumer_iff ring).1 taken).1
    rw [word (State.consumerWord_of_records w records (by decide)), if_pos rfl, State.consume, if_neg refused,
      State.settle_setMisuse settled]
  · have refused : ¬ s.takesConsumer (indexField w) = true := fun taken =>
      Nat.not_le.2 passes ((State.takesConsumer_iff ring).1 taken).2
    rw [word (State.consumerWord_of_records w records (by decide)), if_pos rfl, State.consume, if_neg refused,
      State.settle_setMisuse settled]
  case taken =>
    have taken : s.takesConsumer v = true := (State.takesConsumer_iff ring).2 ⟨inside, not_passed⟩
    have consumes : s.consumerWord 15 w = { consumed with statusChanged := queueMoved } := by
      rw [State.consumerWord_of_records w records (by decide), if_pos rfl]
      exact State.consume_of_taken taken unchanged
    have still_not_due : ({ consumed with statusChanged := queueMoved } : State).stopDue = false :=
      State.stop_not_due_of_consumed ring indices taken not_due
    have waiting : consumed.statusWaiting = s.statusWaiting := State.statusWaiting_raiseRingWrite
    have ports : consumed.ports = s.ports := ({ s with consumer := v } : State).ports_raiseRingWrite
    have noted : consumed.statusChanged = false :=
      (({ s with consumer := v } : State).statusChanged_raiseRingWrite).trans unchanged
    have reporting : consumed.reporting = s.reporting := ({ s with consumer := v } : State).reporting_raiseRingWrite
    have request : consumed.statusRequest = s.statusRequest :=
      ({ s with consumer := v } : State).statusRequest_raiseRingWrite
    rw [word consumes, State.settle_noted settled ports still_not_due noted, waiting, reporting, request]

end
end Sys2Proof.Machine

/-! STOP: taken, completed in the same event, and completed later (R164, R165, R141). -/

namespace Sys2Proof.Machine

section
variable {s : State}

/-! ### Port Units as STOP refuses their WAITING entries -/

/-- A Port Unit with its entries that satisfy a test refused and its hold ended, before its responses are given. -/
def PortUnit.refusing (u : PortUnit) (f : QEntry → Bool) (c : RefusalCode) : PortUnit :=
  { u with queue := u.queue.map (fun z => if f z then z.decide (.refused c) else z), hold := none }

theorem PortUnit.refuseAll_eq (u : PortUnit) (f : QEntry → Bool) (c : RefusalCode) :
    u.refuseAll f c = (u.refusing f c).answer := rfl

/-- A WAITING entry refused is WAITING no more, so refusing the WAITING entries again changes nothing. -/
theorem PortUnit.refusing_refusing (u : PortUnit) (c : RefusalCode) :
    (u.refusing QEntry.isWaiting c).refusing QEntry.isWaiting c = u.refusing QEntry.isWaiting c := by
  have twice (z : QEntry) : (if (if z.isWaiting then z.decide (.refused c) else z).isWaiting then
      (if z.isWaiting then z.decide (.refused c) else z).decide (.refused c)
      else if z.isWaiting then z.decide (.refused c) else z) = if z.isWaiting then z.decide (.refused c) else z := by
    cases waiting : z.isWaiting <;> simp [waiting]
  simp only [PortUnit.refusing, List.map_map, Function.comp_def, twice]

theorem PortUnit.idle_refusing_waiting (u : PortUnit) (c : RefusalCode) :
    (u.refusing QEntry.isWaiting c).idle = u.idle := by
  have entry (z : QEntry) : (!(if z.isWaiting then z.decide (.refused c) else z).isAdmitted &&
      !(if z.isWaiting then z.decide (.refused c) else z).isIssued) = (!z.isAdmitted && !z.isIssued) := by
    cases waiting : z.isWaiting with
    | true => simp [QEntry.not_isAdmitted_of_isWaiting waiting, QEntry.not_isIssued_of_isWaiting waiting]
    | false => rfl
  simp only [PortUnit.idle, PortUnit.refusing, List.all_map, Function.comp_def, entry]

/-- A Port Unit with no entry ADMITTED or ISSUED has none left once its WAITING entries are refused. -/
theorem PortUnit.queue_refuseAll_of_idle {u : PortUnit} (idle : u.idle = true) (no_link : u.link = none)
    (c : RefusalCode) : (u.refuseAll QEntry.isWaiting c).queue = [] := by
  have decided (q : List QEntry) (idle : (q.all fun e => !e.isAdmitted && !e.isIssued) = true) :
      (splitDecided (q.map fun z => if z.isWaiting then z.decide (.refused c) else z)).2 = [] := by
    induction q with
    | nil => rfl
    | cons z q ih =>
      rw [List.all_cons, Bool.and_eq_true] at idle
      obtain ⟨req, phase⟩ := z
      cases phase with
      | waiting | decided r => exact ih idle.2
      | admitted a => exact absurd idle.1 (by simp [QEntry.isAdmitted])
      | issued a b d => exact absurd idle.1 (by simp [QEntry.isIssued])
  rw [PortUnit.refuseAll_eq, PortUnit.answer_of_no_link (by exact no_link)]
  exact decided u.queue idle

theorem State.enginesIdle_iff : s.enginesIdle = true ↔ ∀ e, (s.unit (.engine e)).idle = true := by
  have each : s.enginesIdle = (s.ports.engines.toList.all PortUnit.idle) := rfl
  rw [each]
  constructor
  · intro all e
    exact List.all_eq_true.1 all _ (by cases e <;> simp [State.unit, PerPort.get, PerEngine.get, PerEngine.toList])
  · intro all
    rw [PerEngine.toList, List.all_cons, List.all_cons, List.all_cons, List.all_nil, Bool.and_true]
    rw [show s.ports.engines.p1.idle = true from all .p1, show s.ports.engines.p2.idle = true from all .p2,
      show s.ports.engines.p3.idle = true from all .p3]
    rfl

/-! ### STOP taken -/

/-- The state in which STOP has been taken, before it completes or the event ends (R165, R18). -/
def State.stopTaken (s : State) : State :=
  { s.begun 2 .stop [] with
    opState := .stopping
    ports := ⟨{ s.unit .p0 with hold := none }, s.ports.engines.map fun u => u.refusing QEntry.isWaiting .notActive⟩ }

theorem State.takeStop_of_unlocked (idle : s.command = none) (active : s.opState = .active) (unlocked : s.lock = none) :
    (s.setReporting true).takeStop = s.stopTaken.tryStop := by
  have begun : (s.setReporting true).begin .stop .stop = s.begun 2 .stop [] := State.begin_of_idle idle .stop .stop
  have lockless : ¬ (s.setReporting true).lock.isSome = true := by
    have same : (s.setReporting true).lock = none := unlocked
    rw [same]
    simp
  have moves : (s.begun 2 .stop []).opState ≠ .stopping := by
    have same : (s.begun 2 .stop []).opState = .active := active
    rw [same]
    simp
  have entered : (s.begun 2 .stop []).changeOp .stopping =
      { s.begun 2 .stop [] with opState := .stopping, ports := s.portsUnheld } := by
    rw [State.changeOp_eq, if_neg moves]
    simp only [State.begun, Bool.true_or]
    rfl
  rw [State.takeStop, if_neg lockless, begun, entered]
  rfl

/-- The ports once STOP has been taken (R165, R18). -/
def State.portsStopped (s : State) : PerPort PortUnit :=
  ⟨{ s.unit .p0 with hold := none }, s.ports.engines.map fun u => u.refuseAll QEntry.isWaiting .notActive⟩

/-- The state that STOP leaves where it does not complete in the event that takes it. -/
def State.stopping (s : State) : State :=
  { s.afterBegin 2 .stop [] with opState := .stopping, ports := s.portsStopped }

theorem State.answer_p0_unheld (settled : s.settled = true) :
    ({ s.unit .p0 with hold := none } : PortUnit).answer = { s.unit .p0 with hold := none } :=
  PortUnit.answer_of_settled _ ((s.settled_iff.1 settled).1 .p0)

theorem State.stopTaken_concluded (settled : s.settled = true) : s.stopTaken.concluded = s.stopping := by
  obtain ⟨-, -, irq, unchanged⟩ := s.settled_iff.1 settled
  have none_waits : s.stopTaken.statusWaiting = false := 
    State.not_statusWaiting_begun (s := s) (k := .stop) rfl
  have level : s.stopTaken.irqLevel = s.irqAsserted := irq.symm
  have answered : s.stopTaken.ports.map PortUnit.answer = s.portsStopped := by
    refine Eq.trans (b := ⟨({ s.unit .p0 with hold := none } : PortUnit).answer,
      s.ports.engines.map fun u => u.refuseAll QEntry.isWaiting .notActive⟩) rfl ?_
    rw [State.answer_p0_unheld settled]
    rfl
  rw [State.concluded, none_waits, level, answered, State.stopping, State.afterBegin]
  simp only [State.stopTaken, State.begun, unchanged, Bool.true_and, Bool.not_false, if_true, List.append_assoc,
    List.cons_append,
    List.nil_append]
  rfl

/-- The end of the event that takes STOP with its conditions met (R165). -/
theorem State.settle_tryStop_stopTaken (settled : s.settled = true) (due : s.stopTaken.stopDue = true) :
    s.stopTaken.tryStop.settle = { s.stopping.stopped with ports := s.portsStopped } := by
  have completed : s.stopTaken.tryStop = s.stopTaken.discardStaged.completeStop := State.tryStop_of_due _ due
  have stopping : s.stopTaken.discardStaged.opState = .stopping := by rw [State.discardStaged_eq]; rfl
  have booted : s.stopTaken.tryStop.opState ≠ .stopping := by
    rw [completed, State.completeStop_eq _ stopping]
    simp
  have answered : s.stopTaken.tryStop.answerLinks = s.stopTaken.tryStop := by
    rw [completed]
    have twice (t : State) : t.answerLinks.answerLinks = t.answerLinks := by
      have same : (t.ports.map PortUnit.answer).map PortUnit.answer = t.ports.map PortUnit.answer :=
        PerPort.map_unchanged _ _ fun p => by rw [PerPort.get_map, PortUnit.answer_answer]
      rw [State.answerLinks_eq, State.answerLinks_eq]
      exact congrArg (fun v => { t with ports := v }) same
    exact twice _
  have unwaiting : s.stopping.ctlUnwaiting = s.stopTaken.ctlUnwaiting := by
    rw [← State.stopTaken_concluded settled]
    exact s.stopTaken.ctlUnwaiting_append_status
  have engines : (s.ports.engines.map fun u => u.refusing QEntry.isWaiting .notActive).map
      (fun u => u.refuseAll QEntry.isWaiting .notActive) =
      s.ports.engines.map fun u => u.refuseAll QEntry.isWaiting .notActive := by
    simp only [PerEngine.map, PortUnit.refuseAll_eq, PortUnit.refusing_refusing]
  have ports : (⟨({ s.stopTaken.unit .p0 with hold := none } : PortUnit).answer,
      s.stopTaken.stopped.ports.engines⟩ : PerPort PortUnit) = s.portsStopped := by
    rw [State.portsStopped, ← engines, ← State.answer_p0_unheld settled]
    rfl
  rw [State.settle_of_not_stopping _ booted, answered, State.tryStop_ended_of_due _ due, ports]
  simp only [State.stopped, unwaiting]
  rfl

theorem exec_stop_of_unlocked (ready : s.ready = true) (idle : s.command = none) (active : s.opState = .active)
    (unlocked : s.lock = none) : exec .stop s = .next s.stopTaken.tryStop.settle := by
  have taken : (s.setReporting true).takeCommand .stop = s.stopTaken.tryStop :=
    (if_pos active).trans (State.takeStop_of_unlocked idle active unlocked)
  rw [exec_of_command (k := .stop) ready rfl rfl idle (by simp), taken]

theorem State.enginesIdle_stopTaken : s.stopTaken.enginesIdle = s.enginesIdle := by
  have each (e : Engine) : (s.stopTaken.unit (.engine e)).idle = (s.unit (.engine e)).idle := by
    have unit : s.stopTaken.unit (.engine e) = (s.unit (.engine e)).refusing QEntry.isWaiting .notActive :=
      s.ports.engines.get_map e _
    rw [unit, PortUnit.idle_refusing_waiting]
  rw [Bool.eq_iff_iff, State.enginesIdle_iff, State.enginesIdle_iff]
  exact forall_congr' fun e => by rw [each]

end

/-- Settles O53. -/
theorem stopIsTakenAndCompletes : Obligations.StopIsTakenAndCompletes := by
  refine ⟨?taken, fun s e ports due => ⟨?completes, fun no_link => ?none⟩⟩
  case taken =>
    intro s ready idle active stand refused stopping
    refine ⟨fun locked => ?locked, fun unlocked not_due => ?later,
      fun unlocked due => ?atOnce, fun unlocked engines buffer staged => ?empty⟩
    case locked =>
      have lock : (s.setReporting true).lock.isSome = true := Option.isSome_iff_ne_none.2 locked
      exact exec_of_completed ready idle stand (k := .stop) rfl rfl (by simp) ((if_pos active).trans (if_pos lock))
    case later =>
      have settled := (State.ready_iff.1 ready).2
      have not_due : s.stopTaken.stopDue = false := by
        rw [← State.stopDue_concluded, State.stopTaken_concluded settled]
        exact not_due
      rw [exec_stop_of_unlocked ready idle active unlocked, State.tryStop_of_not_due _ not_due,
        State.settle_of_stop_not_due _ not_due, State.stopTaken_concluded settled]
      rfl
    case atOnce =>
      have settled := (State.ready_iff.1 ready).2
      have due : s.stopTaken.stopDue = true := by
        rw [← State.stopDue_concluded, State.stopTaken_concluded settled]
        exact due
      rw [exec_stop_of_unlocked ready idle active unlocked, State.settle_tryStop_stopTaken settled due]
      rfl
    case empty =>
      have settled := (State.ready_iff.1 ready).2
      have due : s.stopTaken.stopDue = true := by
        have op : s.stopTaken.opState = .stopping := rfl
        have none_buffered : s.stopTaken.bufferEmpty = true := buffer
        have none_staged : s.stopTaken.staged = [] := staged
        simp [State.stopDue, op, State.enginesIdle_stopTaken, engines, none_buffered, none_staged]
      rw [exec_stop_of_unlocked ready idle active unlocked, State.settle_tryStop_stopTaken settled due]
      have unwaiting : s.stopping.ctlUnwaiting = s.ctlUnwaiting ++ [s.resultRequest 2 .inProgress 0] := by
        rw [← State.stopTaken_concluded settled]
        exact s.stopTaken.ctlUnwaiting_append_status.trans (State.ctlUnwaiting_begun (s := s) 2 .stop)
      have level : ({ s.stopping with causes := { s.causes with done := true } } : State).irqLevel =
          (s.irqAsserted || s.enables.done) := by
        rw [(s.settled_iff.1 settled).2.2.1]
        exact s.irqLevel_setCauses_done
      have causes : ({ s.stopping.causes with
          done := true, overflow := s.stopping.causes.overflow || !s.stopping.staged.isEmpty } : Causes) =
          { s.causes with done := true } := by
        have none_staged : s.stopping.staged = [] := staged
        rw [none_staged]
        simp [State.stopping, State.afterBegin]
      rw [State.stopped]
      simp only [unwaiting, causes, level]
      simp only [staged, idle, (s.settled_iff.1 settled).2.2.2, State.stopping,
        State.afterBegin, if_true, List.append_assoc, List.cons_append, List.nil_append]
      rfl
  case completes =>
    have answered : s.answerLinks = s := by
      rw [State.answerLinks_eq, s.ports.map_unchanged _ fun p => PortUnit.answer_of_settled _ (ports p)]
    rw [s.settle_of_stop_due due, answered]
  case none =>
    have idle : s.enginesIdle = true := by
      simp only [State.stopDue, Bool.and_eq_true, decide_eq_true_eq] at due
      obtain ⟨⟨⟨-, idle⟩, -⟩, -⟩ := due
      exact idle
    have answered : s.answerLinks = s := by
      rw [State.answerLinks_eq, s.ports.map_unchanged _ fun p => PortUnit.answer_of_settled _ (ports p)]
    have unit : s.stopped.unit (.engine e) = (s.unit (.engine e)).refuseAll QEntry.isWaiting .notActive :=
      s.ports.engines.get_map e _
    rw [s.settle_of_stop_due due, answered, State.queueOf, unit,
      PortUnit.queue_refuseAll_of_idle (State.enginesIdle_iff.1 idle e) no_link]

end Sys2Proof.Machine

/-! Answers of memory (R15, R106): the end of their events, the answers to pieces (R16), the answers that are discarded
(R62, R63), the marks of the Table Snoop (R59) and the answers to posted entries (R95, R96, R99). -/

namespace Sys2Proof.Machine

section
variable {s t u : State} {p : Port} {i : Issued} {rest : List Issued} {c : Instr} {m : Answering}

/-! ### What an answer does and how its event ends -/

/-- The event of an answer of memory between two events, from what the answer does. -/
theorem exec_of_taken {v : State} (ready : s.ready = true) (row : answeringOf c = some m)
    (issued : s.issued = i :: rest)
    (wanted : m.wanted i.owner = true) (fits : answerFits m.carries i = true)
    (acts : m.acts i { s with issued := rest } = v) : exec c s = .next v.settle := by
  rw [exec_of_answering row, s.answerEvent_taken _ _ _ i rest (State.ready_iff.1 ready).1 issued wanted fits, acts]

theorem settled_taken (settled : s.settled = true) : ({ s with issued := rest } : State).settled = true := settled

/-- The end of an event that has left the pin at its level and noted no change, whether or not STOP is due. -/
theorem State.settle_of_unnoted (irq : t.irqAsserted = t.irqLevel) (unchanged : t.statusChanged = false) :
    t.settle = ({ t with ports := t.ports.map PortUnit.answer } : State).stopIfDue := by
  have no_update : t.ctl ++ (if t.statusChanged && t.reporting && !t.statusWaiting then [t.statusRequest] else []) =
      t.ctl := by simp [unchanged]
  rw [State.settle_eq, State.concluded, ← irq, no_update, ← unchanged]

/-- The same of an event that has changed one Port Unit of a state with nothing due. -/
theorem State.settle_of_set_unnoted {v : PortUnit} (settled : s.settled = true) (ports : t.ports = s.ports.set p v)
    (irq : t.irqAsserted = t.irqLevel) (unchanged : t.statusChanged = false) :
    t.settle = ({ t with ports := s.ports.set p v.answer } : State).stopIfDue := by
  rw [State.settle_of_unnoted irq unchanged, ports, PortUnit.map_answer_set (s.settled_iff.1 settled).1]

/-- The state in which a command in progress has been given its final result, before the end of the event. -/
def State.resulted (s : State) (code : BitVec 8) (o : CommandOutcome) (n : Nat) : State :=
  { s with
    ctl := s.ctlUnwaiting ++ [s.resultRequest code o n]
    command := none
    causes := { s.causes with done := true }
    statusChanged := true }

/-- The end of the event in which a command in progress ends (R158, R169): that of the event without the result, and
behind it the result. -/
theorem State.settle_resulted (not_due : t.stopDue = false) (reporting : t.reporting = true) (code : BitVec 8)
    (o : CommandOutcome) (n : Nat) : (t.resulted code o n).settle = t.concluded.afterResult code o n true := by
  have none_waits : (t.resulted code o n).statusWaiting = false := t.not_statusWaiting_after_result code o n
  have still_not_due : (t.resulted code o n).stopDue = false :=
    State.stop_not_due_of_same not_due rfl rfl rfl rfl rfl rfl rfl
  have level : (t.resulted code o n).irqLevel = (t.irqLevel || t.enables.done) := t.irqLevel_setCauses_done
  have unwaiting : t.concluded.ctlUnwaiting = t.ctlUnwaiting := t.ctlUnwaiting_append_status
  rw [State.settle_of_noted still_not_due rfl (by exact reporting) none_waits, level, State.afterResult, unwaiting]
  simp only [State.resulted, State.concluded, reporting, Bool.true_or, if_true, List.append_assoc, List.cons_append,
    List.nil_append]
  rfl

/-- A final result on a state that has noted a change, or has a command in progress, and has no hold of one. -/
theorem State.finalResult_resulted (noted : (t.statusChanged || t.command.isSome) = true)
    (unheld : ∀ q, (t.holdOf q).any Hold.ofCommand = false) (code : BitVec 8) (o : CommandOutcome) (n : Nat) :
    t.finalResult code o n = t.resulted code o n := by
  have changed : (t.statusChanged || t.statusWaiting || t.command.isSome || !t.causes.done) = true := by
    rcases Bool.or_eq_true_iff.1 noted with h | h <;> simp [h]
  rw [State.finalResult_of_unheld unheld, changed]
  rfl

/-- The event in which a command ends with no hold of one, and nothing else that is due. -/
theorem State.settle_finalResult_resulted (settled : t.settled = true) (reporting : t.reporting = true)
    (busy : t.command.isSome = true) (unheld : ∀ q, (t.holdOf q).any Hold.ofCommand = false) (code : BitVec 8)
    (o : CommandOutcome) (n : Nat) : (t.finalResult code o n).settle = t.afterResult code o n true := by
  rw [State.finalResult_resulted (by simp [busy]) unheld, State.settle_resulted (t.settled_iff.1 settled).2.1 reporting,
    State.concluded_of_settled settled]

/-! ### Which command is in progress -/

theorem State.commandAgrees_iff : s.commandAgrees = true ↔
    s.commandFits = true ∧ s.loadsInProgress = true ∧ (s.command = none ∨ s.reporting = true) := by
  simp [State.commandAgrees, and_assoc]

theorem State.reporting_of_busy {k : Command} (agrees : s.commandAgrees = true) (command : s.command = some k) :
    s.reporting = true := by
  obtain ⟨-, -, reporting⟩ := State.commandAgrees_iff.1 agrees
  exact reporting.resolve_left (by simp [command])

/-- The commands that are taken in ACTIVE and stay in it. -/
theorem State.active_of_command {k : Command} (agrees : s.commandAgrees = true) (command : s.command = some k)
    (inside : ∀ prior first, k ≠ .start prior first) (stays : k ≠ .stop) : s.opState = .active := by
  obtain ⟨fits, -, -⟩ := State.commandAgrees_iff.1 agrees
  unfold State.commandFits at fits
  rw [command] at fits
  cases k with
  | start prior first => exact absurd rfl (inside prior first)
  | stop => exact absurd rfl stays
  | loadWindow | configurePort | reloadMap | drain => simpa using fits

/-- A hold of a command stands only while RELOAD_MAP or CONFIGURE_PORT is in progress (R6). -/
theorem State.no_command_hold_of (stand : s.holdsStand = true) (not_reloading : s.reloading = false)
    (not_configuring : ∀ e, s.configuring e = false) (q : Port) : (s.holdOf q).any Hold.ofCommand = false := by
  rw [Option.any_eq_false]
  intro h hold
  by_contra of_command
  rw [Bool.not_eq_false] at of_command
  cases q with
  | p0 =>
    have stands := s.supervisorHoldStands_of_hold stand hold
    cases h <;> simp [State.supervisorHoldStands, Hold.ofCommand, not_reloading] at stands of_command
  | engine e =>
    have stands := s.holdStands_of_hold stand hold
    cases h <;> simp [State.holdStands, Hold.ofCommand, not_reloading, not_configuring] at stands of_command

/-! ### The answers to pieces -/

section
variable {x : QEntry} {a : Admitted} {ans : Answer} {g : Bool} {f : Option Answer}

theorem exec_pieceAnswer (ready : s.ready = true) (issued : s.issued = i :: rest)
    (owner : i.owner = .piece p a.place) (here : (s.queueOf p).find? (QEntry.isIssuedAt a.place) = some x)
    (fits : answerFits ans i = true) :
    exec (.pieceAnswer ans) s = .next (({ s with issued := rest } : State).answerEntry p x ans).settle := by
  have wanted : Owner.isPiece i.owner = true := by rw [owner]; rfl
  have acts : ({ s with issued := rest } : State).answerPiece i ans =
      ({ s with issued := rest } : State).answerEntry p x ans := by
    have found : ({ s with issued := rest } : State).queueOf p = s.queueOf p := rfl
    simp only [State.answerPiece, owner, found, here]
  exact exec_of_taken ready rfl issued wanted fits acts

theorem answerFits_ok {d : List Word} (length : d.length = i.dataLength) : answerFits (.ok d) i = true :=
  decide_eq_true length

theorem State.answerEntry_of_one (phase : x.phase = .issued a g f) (one : a.second = none) :
    s.answerEntry p x ans = s.completeOne p x.req a ans := by
  simp only [State.answerEntry, phase, one]

theorem State.answerEntry_of_first {z : Piece} (phase : x.phase = .issued a g none) (two : a.second = some z) :
    s.answerEntry p x ans = s.advanceIssued p a.place (.issued a g (some ans)) := by
  simp only [State.answerEntry, phase, two]

theorem State.answerEntry_of_second {z : Piece} {first : Answer} (phase : x.phase = .issued a g (some first))
    (two : a.second = some z) : s.answerEntry p x ans = s.completeTwo p x.req a z first ans := by
  simp only [State.answerEntry, phase, two]

theorem State.completeTwo_of_first_error (z : Piece) :
    s.completeTwo p x.req a z .error ans = s.failEntry p x.req a a.first.addr := by
  cases ans <;> rfl

theorem State.advanceIssued_eq (n : Nat) (ph : Phase) : s.advanceIssued p n ph = { s with
    ports := s.ports.set p { s.unit p with
      queue := updateFirst (QEntry.isIssuedAt n) (fun y => ⟨y.req, ph⟩) (s.queueOf p) } } := rfl

/-- The end of the event in which an entry is given its DONE (R13). -/
theorem State.settle_advanceIssued (settled : s.settled = true) (n : Nat) (ph : Phase) :
    (s.advanceIssued p n ph).settle = ({ s with
      ports := s.ports.set p ({ s.unit p with
        queue := updateFirst (QEntry.isIssuedAt n) (fun y => ⟨y.req, ph⟩) (s.queueOf p) } : PortUnit).answer } :
          State).stopIfDue := by
  obtain ⟨-, -, irq, unchanged⟩ := s.settled_iff.1 settled
  exact State.settle_of_set_unnoted settled (s.advanceIssued_eq (p := p) n ph ▸ rfl) irq unchanged

theorem QEntry.not_admitted_of_isIssuedAt {n : Nat} {e : QEntry} (here : e.isIssuedAt n = true) :
    e.isAdmitted = false ∧ e.isIssued = true := by
  unfold QEntry.isIssuedAt at here
  split at here
  · rename_i phase
    simp [QEntry.isAdmitted, QEntry.isIssued, phase]
  all_goals cases here

end

/-- An ISSUED entry that stays ISSUED. -/
theorem PortUnit.idle_of_still_issued (u : PortUnit) (n : Nat) (ph : Phase)
    (issued : ∀ r, QEntry.isIssued ⟨r, ph⟩ = true) :
    ({ u with
      queue := updateFirst (QEntry.isIssuedAt n) (fun y => ⟨y.req, ph⟩) u.queue } : PortUnit).idle = u.idle := by
  refine updateFirst_all (fun y at_ => ?_) u.queue
  obtain ⟨-, is_issued⟩ := QEntry.not_admitted_of_isIssuedAt at_
  have still : QEntry.isIssued ⟨y.req, ph⟩ = true := issued y.req
  rw [is_issued, still, Bool.not_true, Bool.and_false, Bool.and_false]

end

/-- Settles O35. -/
theorem onePieceAnswerDecidesTheEntry : Obligations.OnePieceAnswerDecidesTheEntry := by
  refine ⟨fun s p n ph => rfl, fun s i rest p x a g f d ready issued owner here phase one =>
    ⟨fun length plain => ?ok, ?error⟩⟩
  case ok =>
    have settled : ({ s with issued := rest } : State).settled = true := (State.ready_iff.1 ready).2
    have unhanded : ¬ (p = .p0 ∧ x.req.kind.isWrite = true) := fun ⟨supervisor, write⟩ => by
      cases (plain supervisor).symm.trans write
    have done : ({ s with issued := rest } : State).completeOne p x.req a (.ok d) =
        ({ s with issued := rest } : State).advanceIssued p a.place (.decided (.done d)) := by
      simp only [State.completeOne, if_neg unhanded]
    rw [exec_pieceAnswer ready issued owner here (answerFits_ok length), State.answerEntry_of_one phase one, done,
      State.settle_advanceIssued settled]
    rfl
  case error =>
    rw [exec_pieceAnswer ready issued owner here rfl, State.answerEntry_of_one phase one]
    cases p <;> simp only [State.completeOne, State.failEntry, State.recordOf_eq]

/-- Settles O36. -/
theorem twoPieceAnswersAreCombined : Obligations.TwoPieceAnswersAreCombined := by
  intro s i rest e x a z g d d' ans ready issued owner here two fails
  have settled : ({ s with issued := rest } : State).settled = true := (State.ready_iff.1 ready).2
  obtain ⟨-, not_due, irq, unchanged⟩ := State.settled_iff _ |>.1 settled
  refine ⟨fun phase fits => ?first, fun phase length => ?done, fun phase => ?second, fun phase fits => ?failed⟩
  case first =>
    rw [exec_pieceAnswer ready issued owner here fits, State.answerEntry_of_first phase two, State.advanceIssued_eq]
    have unit := PortUnit.settled_updateFirst (test := QEntry.isIssuedAt a.place)
      (f := fun y => ⟨y.req, .issued a g (some ans)⟩) (s.unit_settled (State.ready_iff.1 ready).2 (.engine e))
      (fun _ _ => rfl) (s.unit (.engine e)).nextPlace
    have idle := (s.unit (.engine e)).idle_of_still_issued a.place (.issued a g (some ans)) fun _ => rfl
    refine congrArg Host.Outcome.next (State.settle_of_settled_set (p := .engine e) settled unit rfl ?_ irq unchanged)
    exact State.stop_not_due_of_set (p := .engine e) not_due rfl (.inr idle) rfl rfl rfl rfl rfl rfl
  case done =>
    have done : ({ s with issued := rest } : State).completeTwo (.engine e) x.req a z (.ok d) (.ok d') =
        ({ s with issued := rest } : State).advanceIssued (.engine e) a.place (.decided (.done (d ++ d'))) := rfl
    rw [exec_pieceAnswer ready issued owner here (answerFits_ok length), State.answerEntry_of_second phase two, done,
      State.settle_advanceIssued settled]
    rfl
  case second =>
    rw [exec_pieceAnswer ready issued owner here rfl, State.answerEntry_of_second phase two]
    rfl
  case failed =>
    rw [exec_pieceAnswer ready issued owner here fits, State.answerEntry_of_second phase two,
      State.completeTwo_of_first_error]
    rfl

/-! ### The marks of the Table Snoop -/

theorem State.window_markWindows (s : State) (f : Window → Bool) (e : Engine) (w : Index8) :
    (s.markWindows f).window e w = if f (s.window e w) then (s.window e w).mark else s.window e w := by
  rw [State.window, State.markWindows_eq, State.eng, PerEngine.get_map, Eight.get_map]
  rfl

/-- Settles O38. -/
theorem marksReachEveryHolder : Obligations.MarksReachEveryHolder := by
  intro s k e w j d u f t v
  have window : t.window e w = if v.state.selector?.any (fun j => decide (j.toNat = k.toNat)) then v.mark else v :=
    s.window_markWindows _ e w
  refine ⟨fun state => ?_, fun state => ?_, fun state => ?_, fun state => ?_, fun holds other => ?_, rfl, ?_⟩
  · rw [window, state, Window.mark, state]
    simp [WindowState.selector?]
  · rw [window, state, Window.mark, state]
    simp [WindowState.selector?]
  · rw [window, state, Window.mark, state]
    simp
  · rw [window, state]
    simp [WindowState.selector?]
  · have apart : j.toNat ≠ k.toNat := fun same => other (BitVec.eq_of_toNat_eq same)
    rw [window, holds]
    simp [apart]
  · cases e <;> rfl

end Sys2Proof.Machine

/-! Fault reports (R125, R126, R150, R151): the staging of a record (R129, R130), its ring write (R134), and what a
report does to its port. -/

namespace Sys2Proof.Machine

/-! ### The staging FIFO -/

/-- A staged record that a new one is merged into (R129). -/
def Staged.takes (n : Staged) (r : FaultRecord) : Bool := !n.writing && n.record.mergesWith r

/-- The record with one more repeat (R129). -/
def Staged.repeated (n : Staged) : Staged :=
  { n with record := { n.record with repeats := saturatingInc n.record.repeats } }

theorem mergeNewest_of_takes {r : FaultRecord} {l : List Staged} {n : Staged} (newest : l.getLast? = some n)
    (takes : n.takes r = true) : mergeNewest r l = some (l.dropLast ++ [n.repeated]) := by
  induction l with
  | nil => cases newest
  | cons a l ih =>
    cases l with
    | nil =>
      cases newest
      exact if_pos takes
    | cons b l =>
      rw [List.getLast?_cons_cons] at newest
      rw [mergeNewest, ih newest]
      rfl

theorem mergeNewest_of_not_takes {r : FaultRecord} {l : List Staged}
    (refuses : (l.getLast?.all fun n => !n.takes r) = true) : mergeNewest r l = none := by
  induction l with
  | nil => rfl
  | cons a l ih =>
    cases l with
    | nil =>
      have not_taken : a.takes r = false := by simpa using refuses
      exact if_neg (by rw [← Staged.takes, not_taken]; simp)
    | cons b l =>
      rw [List.getLast?_cons_cons] at refuses
      rw [mergeNewest, ih refuses]
      rfl

theorem saturatingInc_eq (c : BitVec 8) : saturatingInc c = if c = 255 then 255 else c + 1 := by
  unfold saturatingInc
  split <;> simp_all

theorem FaultRecord.mergesWith_iff {a b : FaultRecord} : a.mergesWith b = true ↔
    a.kind = b.kind ∧ a.port = b.port ∧ a.window = b.window ∧ a.access = b.access := by
  simp [FaultRecord.mergesWith, and_assoc]

section
variable {s : State} {r : FaultRecord}

theorem State.stageRecord_of_takes {n : Staged} (newest : s.staged.getLast? = some n) (takes : n.takes r = true) :
    s.stageRecord r = { s with staged := s.staged.dropLast ++ [n.repeated] } := by
  simp only [State.stageRecord, mergeNewest_of_takes newest takes]
  rfl

theorem State.stageRecord_of_room (refuses : (s.staged.getLast?.all fun n => !n.takes r) = true)
    (room : s.staged.length < 4) : s.stageRecord r = { s with staged := s.staged ++ [⟨r, false⟩] } := by
  simp only [State.stageRecord, mergeNewest_of_not_takes refuses]
  exact if_pos room

theorem State.stageRecord_of_full (refuses : (s.staged.getLast?.all fun n => !n.takes r) = true)
    (full : 4 ≤ s.staged.length) : s.stageRecord r = s.setOverflow := by
  simp only [State.stageRecord, mergeNewest_of_not_takes refuses]
  exact if_neg (Nat.not_lt.2 full)

/-- Merged, appended, or dropped with OVERFLOW (R129, R130). -/
theorem State.stageRecord_cases (s : State) (r : FaultRecord) :
    (∃ n, s.staged.getLast? = some n ∧ n.takes r = true) ∨
      (s.staged.getLast?.all fun n => !n.takes r) = true ∧ (s.staged.length < 4 ∨ 4 ≤ s.staged.length) := by
  by_cases refuses : (s.staged.getLast?.all fun n => !n.takes r) = true
  · exact .inr ⟨refuses, Nat.lt_or_ge _ _⟩
  · rw [Bool.not_eq_true, Option.all_eq_false] at refuses
    obtain ⟨n, newest, takes⟩ := refuses
    exact .inl ⟨n, newest, by simpa using takes⟩

end

/-- Settles O27. -/
theorem recordsAreStagedAndWritten : Obligations.RecordsAreStagedAndWritten := by
  refine ⟨fun s r n => ⟨fun newest pending kind port window access => ?_, fun refused => ?_⟩,
    fun s h rest g staged ring => ⟨fun op pending room => ?_, fun undue => ?_⟩⟩
  · have takes : n.takes r = true := by
      rw [Staged.takes, pending, FaultRecord.mergesWith_iff.2 ⟨kind, port, window, access⟩]
      rfl
    rw [State.stageRecord_of_takes newest takes, Staged.repeated, saturatingInc_eq, pending]
  · have refuses : (s.staged.getLast?.all fun n => !n.takes r) = true := by
      refine Option.all_eq_true _ _ |>.2 fun n newest => ?_
      have here := Option.all_eq_true _ _ |>.1 refused n newest
      cases writing : n.writing <;> simp_all [Staged.takes, FaultRecord.mergesWith]
    exact ⟨State.stageRecord_of_room refuses,
      fun full => (State.stageRecord_of_full refuses full).trans s.setOverflow_eq⟩
  · refine State.raiseRingWrite_of_due staged ring ?_
    have not_full : s.ringFull = false := by
      rw [← Bool.not_eq_true, State.ringFull_iff ring]
      exact room
    rcases op with op | op <;> simp [State.ringWriteDue, OpState.records, op, pending, not_full]
  · refine State.raiseRingWrite_of_not_due ?_
    rcases undue with writing | full | ⟨active, stopping⟩
    · simp [State.ringWriteDue, writing]
    · have full : s.ringFull = true := (State.ringFull_iff ring).2 full
      simp [State.ringWriteDue, full]
    · cases op : s.opState <;> simp_all [State.ringWriteDue, OpState.records]

/-! ### What a report does -/

section
variable {s : State} {r : FaultRecord} {e : Engine}

/-- What a fault report does not read takes no part in the staging of its record and in the ring write. -/
theorem State.raiseRingWrite_beside (engines : PerEngine EngineUnit) (ports : PerPort PortUnit) (b : Bool) :
    ({ s with engines := engines, ports := ports, statusChanged := b } : State).raiseRingWrite =
      { s.raiseRingWrite with engines := engines, ports := ports, statusChanged := b } := by
  rcases s.raiseRingWrite_cases with ⟨same, not_due | none_staged⟩ | ⟨h, rest, g, staged, ring, due, raised⟩
  · rw [same, State.raiseRingWrite_of_not_due (by exact not_due)]
  · rw [same, State.raiseRingWrite_of_none_staged (by exact none_staged)]
  · rw [raised, State.raiseRingWrite_of_due (h := h) (rest := rest) (g := g) (by exact staged) (by exact ring)
      (by exact due)]
    rfl

theorem State.stageRecord_beside (engines : PerEngine EngineUnit) (ports : PerPort PortUnit) (b : Bool) :
    ({ s with engines := engines, ports := ports, statusChanged := s.statusChanged || b } : State).stageRecord r =
      { s.stageRecord r with
        engines := engines, ports := ports, statusChanged := (s.stageRecord r).statusChanged || b } := by
  rcases s.stageRecord_cases r with ⟨n, newest, takes⟩ | ⟨refuses, room | full⟩
  · rw [State.stageRecord_of_takes newest takes, State.stageRecord_of_takes (n := n) (by exact newest) takes]
  · rw [State.stageRecord_of_room refuses room, State.stageRecord_of_room (by exact refuses) (by exact room)]
  · rw [State.stageRecord_of_full refuses full, State.stageRecord_of_full (by exact refuses) (by exact full),
      State.setOverflow_eq, State.setOverflow_eq]
    simp only [Bool.or_right_comm]

theorem State.takeRecord_of_records (records : s.opState = .active ∨ s.opState = .stopping) :
    s.takeRecord r = (s.stageRecord r).raiseRingWrite := by
  unfold State.takeRecord
  rcases records with op | op <;> rw [op]

theorem State.takeRecord_of_dropped (drops : s.opState = .loading ∨ s.opState = .halted) :
    s.takeRecord r = s.setOverflow := by
  unfold State.takeRecord
  rcases drops with op | op <;> rw [op]

theorem State.takeRecord_of_boot (boot : s.opState = .boot) : s.takeRecord r = s := by
  unfold State.takeRecord
  rw [boot]

theorem State.records_cases (s : State) : (s.opState = .active ∨ s.opState = .stopping) ∨
    (s.opState = .loading ∨ s.opState = .halted) ∨ s.opState = .boot := by
  cases s.opState <;> simp

theorem State.takeRecord_beside (engines : PerEngine EngineUnit) (ports : PerPort PortUnit) (b : Bool) :
    ({ s with engines := engines, ports := ports, statusChanged := s.statusChanged || b } : State).takeRecord r =
      { s.takeRecord r with
        engines := engines, ports := ports, statusChanged := (s.takeRecord r).statusChanged || b } := by
  rcases s.records_cases with records | drops | boot
  · rw [State.takeRecord_of_records records, State.takeRecord_of_records (by exact records), State.stageRecord_beside,
      State.raiseRingWrite_beside, State.statusChanged_raiseRingWrite]
  · rw [State.takeRecord_of_dropped drops, State.takeRecord_of_dropped (by exact drops), State.setOverflow_eq,
      State.setOverflow_eq]
    simp only [Bool.or_right_comm]
  · rw [State.takeRecord_of_boot boot, State.takeRecord_of_boot (by exact boot)]

/-- The record of a report in each operating state (R125). -/
theorem State.takeRecord_eq (r : FaultRecord) {op : OpState} : s.opState = op → s.takeRecord r = match op with
    | .active | .stopping => (s.stageRecord r).raiseRingWrite
    | .loading | .halted => { s with
        causes := { s.causes with overflow := true }
        statusChanged := s.statusChanged || !s.causes.overflow }
    | .boot => s := by
  intro same
  cases op with
  | active => exact State.takeRecord_of_records (.inl same)
  | stopping => exact State.takeRecord_of_records (.inr same)
  | loading => exact (State.takeRecord_of_dropped (.inl same)).trans s.setOverflow_eq
  | halted => exact (State.takeRecord_of_dropped (.inr same)).trans s.setOverflow_eq
  | boot => exact State.takeRecord_of_boot same

theorem State.opState_takeRecord : (s.takeRecord r).opState = s.opState := by rw [State.takeRecord_frame]
theorem State.engines_takeRecord : (s.takeRecord r).engines = s.engines := by rw [State.takeRecord_frame]
theorem State.ports_takeRecord : (s.takeRecord r).ports = s.ports := by rw [State.takeRecord_frame]

/-- The record of the fault, and that of the storm it starts (R124, R151). -/
def State.recorded (s : State) (e : Engine) (r : FaultRecord) : State :=
  if (s.eng e).state = .opened ∧ (s.eng e).afterReport.state = .quiet then
    (s.takeRecord r).takeRecord (stormRecord r)
  else s.takeRecord r

/-- What a report leaves of a Port Unit: the hold ends with a change of the port state (R144). -/
def State.portsReported (s : State) (e : Engine) : PerPort PortUnit :=
  if (s.eng e).afterReport.state = (s.eng e).state then s.ports
  else s.ports.set (.engine e) (s.unit (.engine e)).afterPortChange

/-- The port of a report, with the change of its state noted. -/
def State.portReported (s t : State) (e : Engine) : State :=
  { t with
    engines := s.engines.set e (s.eng e).afterReport
    ports := s.portsReported e
    statusChanged := t.statusChanged || decide ((s.eng e).afterReport.state ≠ (s.eng e).state) }

theorem EngineUnit.afterReport_eq (u : EngineUnit) : u.afterReport = { u with
    storm := saturatingInc u.storm
    state := if u.settings.block then (if u.state = .opened ∨ u.state = .quiet then .blocked else u.state)
      else if u.state = .opened ∧ u.settings.high ≠ 0 ∧ u.settings.high ≤ saturatingInc u.storm then .quiet
      else u.state } := by
  rw [EngineUnit.afterReport, saturatingInc_eq]

/-- The error mode applied to a port (R126). -/
theorem State.applyErrorMode_eq (s : State) (e : Engine) : s.applyErrorMode e =
    if (s.eng e).settings.block = true ∧ ((s.eng e).state = .opened ∨ (s.eng e).state = .quiet) then
      s.changePortState e .blocked else s := by
  unfold State.applyErrorMode
  cases (s.eng e).settings.block <;> cases (s.eng e).state <;> simp

theorem State.countFault_of_quiets (opened : (s.eng e).state = .opened) (high : (s.eng e).settings.high ≠ 0)
    (reached : (s.eng e).settings.high ≤ saturatingInc (s.eng e).storm) :
    s.countFault e r = ((s.countStorm e).changePortState e .quiet).takeRecord (stormRecord r) := by
  have counted : (s.countStorm e).eng e = { s.eng e with storm := saturatingInc (s.eng e).storm } :=
    s.engines.get_set_same e _
  refine if_pos ?_
  rw [counted]
  exact ⟨opened, high, reached⟩

theorem State.countFault_of_stays (stays : ¬ ((s.eng e).state = .opened ∧ (s.eng e).settings.high ≠ 0 ∧
    (s.eng e).settings.high ≤ saturatingInc (s.eng e).storm)) : s.countFault e r = s.countStorm e := by
  have counted : (s.countStorm e).eng e = { s.eng e with storm := saturatingInc (s.eng e).storm } :=
    s.engines.get_set_same e _
  refine if_neg ?_
  rw [counted]
  exact stays

theorem State.countStorm_eq (s : State) (e : Engine) : s.countStorm e = { s with
    engines := s.engines.set e { s.eng e with storm := saturatingInc (s.eng e).storm } } := rfl

/-- What a fault report does on an engine port (R125, R126, R150, R151). -/
theorem State.report_engine (port : r.port = .engine e) : s.report r = s.portReported (s.recorded e r) e := by
  have unfolded : s.report r = ((s.takeRecord r).applyErrorMode e).countFault e r := by
    simp only [State.report, port]
  have unit : (s.takeRecord r).eng e = s.eng e := by rw [State.eng, State.engines_takeRecord]; rfl
  have unit_kept : (s.takeRecord r).unit (.engine e) = s.unit (.engine e) := by
    rw [State.unit, State.ports_takeRecord]
    rfl
  have left := (s.eng e).afterReport_eq
  rw [unfolded, State.applyErrorMode_eq, unit]
  by_cases blocks : (s.eng e).settings.block = true ∧ ((s.eng e).state = .opened ∨ (s.eng e).state = .quiet)
  · obtain ⟨block, moves⟩ := blocks
    have blocked : (s.eng e).afterReport = { s.eng e with
        storm := saturatingInc (s.eng e).storm, state := .blocked } := by
      rw [left, if_pos block, if_pos moves]
    have moves : (s.eng e).state ≠ .blocked := by rcases moves with state | state <;> simp [state]
    rw [if_pos ⟨block, by assumption⟩, State.changePortState_eq, unit, if_neg moves, State.countFault_of_stays]
    · rw [State.countStorm_eq, State.portReported, State.portsReported, State.recorded, blocked]
      have moves_to : ¬ (s.engines.get e).state = PortState.blocked := moves
      have moves_from : ¬ PortState.blocked = (s.engines.get e).state := Ne.symm moves
      simp only [State.eng, PerEngine.get_set_same, PerEngine.set_set_same, reduceCtorEq, and_false, if_false,
        State.engines_takeRecord, unit_kept, State.ports_takeRecord, ne_eq, moves_to, moves_from, not_false_eq_true,
        decide_true]
    · simp [State.eng]
  · rw [if_neg blocks]
    by_cases quiets : (s.eng e).state = .opened ∧ (s.eng e).settings.high ≠ 0 ∧
        (s.eng e).settings.high ≤ saturatingInc (s.eng e).storm
    · obtain ⟨opened, high, reached⟩ := quiets
      have record : ¬ (s.eng e).settings.block = true := fun block => blocks ⟨block, .inl opened⟩
      have quiet : (s.eng e).afterReport = { s.eng e with
          storm := saturatingInc (s.eng e).storm, state := .quiet } := by
        rw [left, if_neg record, if_pos ⟨opened, high, reached⟩]
      have here : (s.engines.get e).state = .opened := opened
      have moved : ((s.takeRecord r).countStorm e).changePortState e .quiet = { s.takeRecord r with
          engines := s.engines.set e (s.eng e).afterReport
          ports := s.ports.set (.engine e) (s.unit (.engine e)).afterPortChange
          statusChanged := (s.takeRecord r).statusChanged || true } := by
        rw [quiet, State.countStorm_eq, State.changePortState_eq]
        simp only [State.eng, PerEngine.get_set_same, PerEngine.set_set_same, reduceCtorEq, if_false,
          State.engines_takeRecord, State.unit, State.ports_takeRecord, ne_eq, here, not_false_eq_true, decide_true]
      rw [State.countFault_of_quiets (by rw [unit]; exact opened) (by rw [unit]; exact high)
        (by rw [unit]; exact reached), moved, State.takeRecord_beside, State.portReported, State.portsReported,
        State.recorded, quiet, opened]
      simp only [reduceCtorEq, if_false, ne_eq, not_false_eq_true, decide_true, and_self, if_true]
    · have stays : (s.eng e).afterReport = { s.eng e with storm := saturatingInc (s.eng e).storm } := by
        rw [left]
        by_cases block : (s.eng e).settings.block = true
        · rw [if_pos block, if_neg fun moves => blocks ⟨block, moves⟩]
        · rw [if_neg block, if_neg quiets]
      have unmoved : ¬ ((s.eng e).state = .opened ∧ (s.eng e).afterReport.state = .quiet) := by
        rw [stays]
        rintro ⟨opened, quiet⟩
        cases opened.symm.trans quiet
      rw [State.countFault_of_stays (by rw [unit]; exact quiets), State.countStorm_eq, unit, State.portReported,
        State.portsReported, State.recorded, if_neg unmoved, stays]
      simp only [State.engines_takeRecord, if_true, ne_eq, not_true_eq_false, decide_false, Bool.or_false]
      rw [← State.ports_takeRecord (s := s) (r := r)]

theorem State.report_p0 (port : r.port = .p0) : s.report r = s.takeRecord r := by
  simp only [State.report, port]

end

/-- Settles O26. -/
theorem reportsActOnThePort : Obligations.ReportsActOnThePort := by
  intro s r e recorded storm u left t
  have record {z : State} (y : FaultRecord) (same : z.opState = s.opState) : z.takeRecord y = recorded z y :=
    State.takeRecord_eq y same
  have both : (s.takeRecord r).takeRecord (stormRecord r) = recorded (recorded s r) storm := by
    rw [← record r rfl, ← record storm State.opState_takeRecord]
    rfl
  refine ⟨fun port => ?_, fun port => ?_⟩
  · have taken : s.recorded e r = t := by
      rw [State.recorded, both, record r rfl]
    rw [State.report_engine port, taken]
    rfl
  · rw [State.report_p0 port, record r rfl]

end Sys2Proof.Machine

/-! The answers that stop the model and those that are discarded (R15, R62, R63), the answers to posted entries (R95,
R96, R99), and the completion of a fetch (R39, R65 to R68). -/

namespace Sys2Proof.Machine

section
variable {s t : State} {i : Issued} {rest : List Issued} {c : Instr} {m : Answering}

/-! ### Answers that fit no request -/

theorem exec_of_answering_none (running : s.inReset = false) (row : answeringOf c = some m) (issued : s.issued = []) :
    exec c s = .fault .answerWithoutRequest := by
  rw [exec_of_answering row, State.answerEvent, if_neg (by simp [running]), issued]

theorem exec_of_answering_unwanted (running : s.inReset = false) (row : answeringOf c = some m)
    (issued : s.issued = i :: rest) (unwanted : m.wanted i.owner = false) :
      exec c s = .fault .answerWithoutRequest := by
  rw [exec_of_answering row, State.answerEvent, if_neg (by simp [running]), issued]
  exact if_neg (by simp [unwanted])

theorem exec_of_answering_unfit (running : s.inReset = false) (row : answeringOf c = some m)
    (issued : s.issued = i :: rest) (wanted : m.wanted i.owner = true) (unfit : answerFits m.carries i = false) :
    exec c s = .fault .answerDataLength := by
  rw [exec_of_answering row, State.answerEvent, if_neg (by simp [running]), issued]
  exact (if_pos wanted).trans (if_neg (by simp [unfit]))

theorem Owner.isCtl_of_ne {k : CtlKind} {o : Owner} (other : o ≠ .ctl k) : o.isCtl k = false := decide_eq_false other

theorem Owner.isCtl_of_eq {k : CtlKind} {o : Owner} (same : o = .ctl k) : o.isCtl k = true := decide_eq_true same

theorem answerFits_ok_eq_false {d : List Word} (length : d.length ≠ (if i.write then 0 else i.beats)) :
    answerFits (.ok d) i = false := decide_eq_false length

/-! ### A CURRENT fetch -/

section
variable {f : Fetch} {fs : List Fetch} {ans : Answer} {k : Selector} {u : Purpose}

theorem exec_descriptorFetchAnswer {v : State} (ready : s.ready = true) (issued : s.issued = i :: rest)
    (owner : i.owner = .ctl .fetch) (fits : answerFits ans i = true) (fetches : s.fetches = f :: fs)
    (current : f.current = true)
    (completes : ({ s with issued := rest, fetches := fs } : State).fetchCompletion f.engine f.window ans = v) :
    exec (.descriptorFetchAnswer ans) s = .next v.settle := by
  refine exec_of_taken ready rfl issued (Owner.isCtl_of_eq owner) fits ?_
  have list : ({ s with issued := rest } : State).fetches = f :: fs := fetches
  dsimp only
  rw [State.answerFetch, list]
  exact (if_pos current).trans completes

theorem State.fetchCompletion_of_flag {e : Engine} {w : Index8} (state : (s.window e w).state = .fetching u k true) :
    s.fetchCompletion e w ans = s.refetchAgain e w u k := by
  simp only [State.fetchCompletion, state]

theorem State.fetchCompletion_of_load {e : Engine} {w : Index8}
    (state : (s.window e w).state = .fetching .load k false) :
    s.fetchCompletion e w ans = s.completeLoad e w k ans := by
  simp only [State.fetchCompletion, state]

theorem State.fetchCompletion_of_refetch {e : Engine} {w : Index8}
    (state : (s.window e w).state = .fetching .refetch k false) :
    s.fetchCompletion e w ans = s.completeRefetch e w k ans := by
  simp only [State.fetchCompletion, state]

end

/-- Settles O40. -/
theorem fetchAnswersAreDiscarded : Obligations.FetchAnswersAreDiscarded := by
  refine ⟨fun s a k i rest d running => ?stops,
    fun s i rest f fs ans u k g ready issued owner fits fetches => ⟨fun cancelled => ?_, fun current state table => ?_⟩⟩
  case stops =>
    intro byKind acks
    refine ⟨fun issued c row => ?_, fun issued => ⟨fun other => ?_, fun other => ?_, fun c row other => ?_,
      fun c row other => ?_, fun length => ⟨?_, fun c row same => ?_⟩⟩⟩
    · have rows : c ∈ [Instr.pieceAnswer a, .postedEntryAnswer k, .descriptorFetchAnswer a, .startReadAnswer a,
          .reloadMapReadAnswer a, .configurePortReadAnswer a, .ringWriteAnswer k, .statusUpdateAnswer k,
          .resultWriteAnswer k] := row
      simp only [List.mem_cons, List.not_mem_nil, or_false] at rows
      rcases rows with rfl | rfl | rfl | rfl | rfl | rfl | rfl | rfl | rfl <;>
        exact exec_of_answering_none running rfl issued
    · refine exec_of_answering_unwanted (c := .pieceAnswer a) running rfl issued ?_
      cases owner : i.owner with
      | piece p n => exact absurd owner (other p n)
      | posted n => rfl
      | ctl k => rfl
    · refine exec_of_answering_unwanted (c := .postedEntryAnswer k) running rfl issued ?_
      cases owner : i.owner with
      | posted n => exact absurd owner (other n)
      | piece p n => rfl
      | ctl k => rfl
    · simp only [byKind, List.mem_cons, List.not_mem_nil, or_false] at row
      rcases row with rfl | rfl | rfl | rfl <;>
        exact exec_of_answering_unwanted running rfl issued (Owner.isCtl_of_ne other)
    · simp only [acks, List.mem_cons, List.not_mem_nil, or_false] at row
      rcases row with rfl | rfl | rfl <;>
        exact exec_of_answering_unwanted running rfl issued (Owner.isCtl_of_ne other)
    · rintro ⟨p, n, owner⟩
      exact exec_of_answering_unfit (c := .pieceAnswer (.ok d)) running rfl issued (by rw [owner]; rfl)
        (answerFits_ok_eq_false length)
    · simp only [byKind, List.mem_cons, List.not_mem_nil, or_false] at row
      rcases row with rfl | rfl | rfl | rfl <;>
        exact exec_of_answering_unfit running rfl issued (Owner.isCtl_of_eq same) (answerFits_ok_eq_false length)
  · have settled : ({ s with issued := rest, fetches := fs } : State).settled = true := (State.ready_iff.1 ready).2
    have event : exec (.descriptorFetchAnswer ans) s =
        .next ({ s with issued := rest, fetches := fs } : State).settle := by
      refine exec_of_taken ready rfl issued (Owner.isCtl_of_eq owner) fits ?_
      have list : ({ s with issued := rest } : State).fetches = f :: fs := fetches
      dsimp only
      rw [State.answerFetch, list]
      exact if_neg (by simp [cancelled])
    rw [event, State.settle_of_settled settled]
  · have settled := (State.ready_iff.1 ready).2
    have again : ({ s with issued := rest, fetches := fs } : State).refetchAgain f.engine f.window u k = { s with
        issued := rest
        fetches := fs ++ [⟨f.engine, f.window, k, u, true⟩]
        engines := s.engines.set f.engine { s.eng f.engine with
          windows := (s.eng f.engine).windows.set f.window
            { s.window f.engine f.window with state := .fetching u k false } }
        ctl := s.ctl ++ [fetchRequest g k.toNat] } := by
      rw [State.refetchAgain, State.raiseFetch_of_table (g := g) _ _ k u (by exact table)]
      rfl
    rw [exec_descriptorFetchAnswer ready issued owner fits fetches current
      ((State.fetchCompletion_of_flag (by exact state)).trans again)]
    exact congrArg Host.Outcome.next (State.settle_of_settled (by exact settled))

/-! ### Posted entries -/

section
variable {n : Index8} {v : Posted} {ack : Ack}

/-- The holds for buffer space ended (R90). -/
def State.spaceFreed (s : State) (n : Index8) (rest : List Issued) : State :=
  { s with
    issued := rest
    buffer := s.buffer.set n none
    ports := s.ports.map fun u => if u.hold = some .bufferSpace then { u with hold := none } else u }

theorem State.freeEntry_eq : ({ s with issued := rest } : State).freeEntry n = s.spaceFreed n rest := by
  have test (u : PortUnit) : (if u.hold.any (fun h => decide (h = .bufferSpace)) then { u with hold := none } else u) =
      if u.hold = some .bufferSpace then { u with hold := none } else u := by
    rcases hold : u.hold with _ | h <;> simp
  simp only [State.freeEntry, State.endHolds_eq, test]
  rfl

theorem State.settled_unit_spaceFreed (settled : s.settled = true) (p : Port) :
    ((s.spaceFreed n rest).unit p).settled = true := by
  have unit : (s.spaceFreed n rest).unit p =
      if (s.unit p).hold = some .bufferSpace then { s.unit p with hold := none } else s.unit p := s.ports.get_map p _
  rw [unit]
  split
  · exact s.unit_settled settled p
  · exact s.unit_settled settled p

theorem State.settle_spaceFreed (settled : s.settled = true) :
    (s.spaceFreed n rest).settle = (s.spaceFreed n rest).stopIfDue := by
  obtain ⟨-, -, irq, unchanged⟩ := s.settled_iff.1 settled
  have answered : (s.spaceFreed n rest).ports.map PortUnit.answer = (s.spaceFreed n rest).ports :=
    PerPort.map_unchanged _ _ fun p => PortUnit.answer_of_settled _ (State.settled_unit_spaceFreed settled p)
  rw [State.settle_of_unnoted (t := s.spaceFreed n rest) irq unchanged, answered]

theorem State.tryDrain_of_waiting (waits : s.command ≠ some .drain ∨ s.watching = true) : s.tryDrain = s := by
  refine if_neg ?_
  rintro ⟨drains, unwatched⟩
  rcases waits with other | watching
  · exact other drains
  · cases watching.symm.trans unwatched

theorem State.tryDrain_of_drained (drains : s.command = some .drain) (unwatched : s.watching = false) :
    s.tryDrain = s.finalResult 11 .ok 0 := if_pos ⟨drains, unwatched⟩

theorem exec_postedEntryAnswer {w : State} (ready : s.ready = true) (issued : s.issued = i :: rest)
    (owner : i.owner = .posted n) (write : i.write = true) (held : s.buffer.get n = some v)
    (acts : (match ack with
      | .ok => (s.spaceFreed n rest).tryDrain
      | .error => ((s.spaceFreed n rest).report ((s.spaceFreed n rest).deferredRecord v)).tryDrain) = w) :
    exec (.postedEntryAnswer ack) s = .next w.settle := by
  have fits : answerFits (answerOfAck ack) i = true := by
    cases ack <;> simp [answerFits, answerOfAck, Issued.dataLength, write]
  refine exec_of_taken ready rfl issued (by rw [owner]; rfl) fits ?_
  have entry : ({ s with issued := rest } : State).buffer.get n = some v := held
  subst acts
  cases ack <;> simp only [State.answerPosted, owner, entry, State.freeEntry_eq]

theorem State.holdOf_spaceFreed_unheld {h : Hold → Bool} (p : Port) (unheld : (s.holdOf p).any h = false) :
    ((s.spaceFreed n rest).holdOf p).any h = false := by
  have unit : (s.spaceFreed n rest).unit p =
      if (s.unit p).hold = some .bufferSpace then { s.unit p with hold := none } else s.unit p := s.ports.get_map p _
  rw [State.holdOf, unit]
  split
  · rfl
  · exact unheld

/-- A report leaves no hold of a command where there was none (R144, R148). -/
theorem PortUnit.afterPortChange_unheld {u : PortUnit} (unheld : u.hold.any Hold.ofCommand = false) :
    u.afterPortChange.hold.any Hold.ofCommand = false := by
  have ended : u.afterPortChange.hold = none := by
    refine if_neg ?_
    rintro (hold | hold) <;> simp [hold, Hold.ofCommand] at unheld
  rw [ended]
  rfl

theorem State.holdOf_report_unheld {r : FaultRecord} (unheld : ∀ q, (s.holdOf q).any Hold.ofCommand = false)
    (q : Port) :
    ((s.report r).holdOf q).any Hold.ofCommand = false := by
  cases port : r.port with
  | p0 =>
    rw [State.report_p0 port, State.holdOf, State.unit, State.ports_takeRecord]
    exact unheld q
  | engine e =>
    have ports : (s.report r).ports = s.portsReported e := by rw [State.report_engine port]; rfl
    rw [State.holdOf, State.unit, ports, State.portsReported]
    split
    · exact unheld q
    · by_cases same : q = .engine e
      · subst same
        rw [PerPort.get_set_same]
        exact PortUnit.afterPortChange_unheld (unheld (.engine e))
      · rw [PerPort.get_set_other _ _ _ _ same]
        exact unheld q

theorem State.deferredRecord_eq (v : Posted) : s.deferredRecord v = match v.port with
    | .p0 => ⟨.deferredWrite, .p0, none, .write, v.piece.beats, 1, v.logical, some v.logical, none, s.now⟩
    | .engine e => ⟨.deferredWrite, .engine e, v.via.map Via.window, .write, v.piece.beats, 1, v.logical,
        some v.piece.addr, v.via.map Via.selector, s.now⟩ := by
  rw [State.deferredRecord]
  cases v.port <;> rfl

end

end

/-- Settles O39. -/
theorem postedAnswersFreeTheEntry : Obligations.PostedAnswersFreeTheEntry := by
  intro s i rest n v ready issued owner write held freed reported
  have settled := (State.ready_iff.1 ready).2
  have space : s.spaceFreed n rest = freed := rfl
  have record := State.deferredRecord_eq (s := freed) v
  have answered {ack : Ack} {w : State} (acts : (match ack with
      | .ok => freed.tryDrain
      | .error => (freed.report (freed.deferredRecord v)).tryDrain) = w) :
      exec (.postedEntryAnswer ack) s = .next w.settle := exec_postedEntryAnswer ready issued owner write held acts
  have kept (r : FaultRecord) := freed.report_frame r
  refine ⟨fun waits => ⟨?_, ?_⟩, fun drains unwatched stand agrees => ⟨?_, ?_⟩⟩
  · have acts : freed.tryDrain = freed := State.tryDrain_of_waiting waits
    rw [answered (ack := .ok) acts, ← space, State.settle_spaceFreed settled]
  · have acts : (freed.report (freed.deferredRecord v)).tryDrain = freed.report (freed.deferredRecord v) := by
      refine State.tryDrain_of_waiting ?_
      rw [kept]
      exact waits
    rw [answered (ack := .error) acts, record] <;> rfl
  all_goals
    have active : freed.opState = .active := State.active_of_command agrees drains (by simp) (by simp)
    have reporting : freed.reporting = true := State.reporting_of_busy agrees drains
    have unheld (q : Port) : (freed.holdOf q).any Hold.ofCommand = false :=
      State.holdOf_spaceFreed_unheld q (State.no_command_hold_of stand (by simp [State.reloading, drains])
        (fun e => by simp [State.configuring, drains]) q)
  · obtain ⟨-, -, irq, unchanged⟩ := s.settled_iff.1 settled
    have still : freed.settled = true := State.settled_iff _ |>.2
      ⟨State.settled_unit_spaceFreed settled, State.stopDue_of_not_stopping (by rw [active]; simp), irq, unchanged⟩
    rw [answered (ack := .ok) (State.tryDrain_of_drained drains unwatched),
      State.settle_finalResult_resulted still reporting (Option.isSome_iff_ne_none.2
        (by rw [show freed.command = _ from drains]; simp)) unheld]
  · obtain ⟨y, reports⟩ : ∃ y, y = freed.report (freed.deferredRecord v) := ⟨_, rfl⟩
    have drains : y.command = some .drain := by rw [reports, kept]; exact drains
    have unwatched : y.watching = false := by rw [reports, kept]; exact unwatched
    have not_due : y.stopDue = false := State.stopDue_of_not_stopping (by rw [reports, kept, active]; simp)
    have unheld (q : Port) : (y.holdOf q).any Hold.ofCommand = false := by
      rw [reports]
      exact State.holdOf_report_unheld unheld q
    have ended : reported = y.concluded := by
      rw [← y.settle_of_stop_not_due not_due, reports, record] <;> rfl
    have acts : (freed.report (freed.deferredRecord v)).tryDrain = y.finalResult 11 .ok 0 := by
      rw [← reports]
      exact State.tryDrain_of_drained drains unwatched
    rw [answered (ack := .error) acts,
      State.finalResult_resulted (by simp [drains]) unheld,
      State.settle_resulted not_due (by rw [reports, kept]; exact reporting), ended]

end Sys2Proof.Machine

/-! The completion of a descriptor fetch (R39, R65 to R68). -/

namespace Sys2Proof.Machine

section
variable {s : State} {i : Issued} {rest : List Issued} {f : Fetch} {fs : List Fetch} {e : Engine} {w : Index8}
  {v : Window} {k : Selector} {desc : Descriptor} {r : Arg}

/-- The state in which a fetch has been answered and its window has taken a new state, with the hold on it ended (R6,
R61). -/
def State.fetched (s : State) (rest : List Issued) (fs : List Fetch) (e : Engine) (w : Index8) (v : Window) : State :=
  { s with
    issued := rest
    fetches := fs
    engines := s.engines.set e { s.eng e with windows := (s.eng e).windows.set w v }
    ports := s.ports.set (.engine e) { s.unit (.engine e) with
      hold := if s.holdOf (.engine e) = some (.window w) then none else s.holdOf (.engine e) } }

theorem State.endWindowHold_setWindow :
    (({ s with issued := rest, fetches := fs } : State).setWindow e w v).endWindowHold e w =
      s.fetched rest fs e w v := by
  rw [State.endWindowHold_eq]
  rfl

theorem State.settled_fetched (settled : s.settled = true) : (s.fetched rest fs e w v).settled = true := by
  have held := State.settled_setHold (p := .engine e) settled
    (if s.holdOf (.engine e) = some (.window w) then none else s.holdOf (.engine e))
  exact held

theorem State.holdOf_fetched_unheld {h : Hold → Bool} (p : Port) (unheld : (s.holdOf p).any h = false) :
    ((s.fetched rest fs e w v).holdOf p).any h = false := by
  rw [State.holdOf, State.unit, State.fetched]
  by_cases same : p = .engine e
  · subst same
    rw [PerPort.get_set_same]
    dsimp only
    split
    · rfl
    · exact unheld
  · rw [PerPort.get_set_other _ _ _ _ same]
    exact unheld

/-- The rotation of a completed LOAD (R39). -/
theorem rotationAfter_load : rotationAfter .load r desc.checked = if desc.rotating then desc.initial else 0 := by
  unfold rotationAfter Descriptor.checked
  cases desc.rotating <;> rfl

/-- The rotation of a completed refetch (R65). -/
theorem rotationAfter_refetch : rotationAfter .refetch r desc.checked =
    if desc.rotating then (if r.toNat < desc.middle then r else desc.initial) else 0 := by
  unfold rotationAfter Descriptor.checked
  cases desc.rotating <;> rfl

/-- A window FETCHING for a LOAD has its LOAD_WINDOW in progress (R37, R39). -/
theorem State.command_of_loading (agrees : s.commandAgrees = true) (loading : (s.window e w).isLoading = true) :
    s.command = some (.loadWindow e w) := by
  obtain ⟨-, loads, -⟩ := State.commandAgrees_iff.1 agrees
  simp only [State.loadsInProgress, List.all_eq_true, Bool.or_eq_true, Bool.not_eq_true', decide_eq_true_eq] at loads
  have here := loads e (by cases e <;> simp [allEngines]) w (by simp [allIndexes_eq])
  exact here.resolve_left (by simp [loading])

/-- The end of a LOAD_WINDOW (R39, R158). -/
theorem State.settle_loadEnded (settled : s.settled = true) (stand : s.holdsStand = true)
    (agrees : s.commandAgrees = true)
    (command : s.command = some (.loadWindow e w)) (o : CommandOutcome) (n : Nat) :
    ((s.fetched rest fs e w v).finalResult 3 o n).settle = (s.fetched rest fs e w v).afterResult 3 o n true := by
  have busy : (s.fetched rest fs e w v).command.isSome = true := by
    have same : (s.fetched rest fs e w v).command = some (.loadWindow e w) := command
    rw [same]
    rfl
  have unheld (q : Port) : ((s.fetched rest fs e w v).holdOf q).any Hold.ofCommand = false :=
    State.holdOf_fetched_unheld q (State.no_command_hold_of stand (by simp [State.reloading, command])
      (fun e => by simp [State.configuring, command]) q)
  have reporting : (s.fetched rest fs e w v).reporting = true := State.reporting_of_busy (s := s) agrees command
  exact State.settle_finalResult_resulted (t := s.fetched rest fs e w v) (State.settled_fetched settled) reporting busy
    unheld 3 o n

end

/-- Settles O41. -/
theorem loadsComplete : Obligations.LoadsComplete := by
  intro s i rest f fs k a b c d ready stand agrees issued owner length fetches current state desc ended
  have settled := (State.ready_iff.1 ready).2
  have command := State.command_of_loading agrees (e := f.engine) (w := f.window) (by rw [Window.isLoading, state])
  have four : answerFits (.ok [a, b, c, d]) i = true := answerFits_ok (by simp [length])
  have event {ans : Answer} {v : Window} {o : CommandOutcome} {n : Nat} (fits : answerFits ans i = true)
      (completes : ({ s with issued := rest, fetches := fs } : State).completeLoad f.engine f.window k ans =
        (s.fetched rest fs f.engine f.window v).finalResult 3 o n) :
      exec (.descriptorFetchAnswer ans) s = .next ((ended v).afterResult 3 o n true) := by
    rw [exec_descriptorFetchAnswer ready issued owner fits fetches current
      ((State.fetchCompletion_of_load (by exact state)).trans completes),
      State.settle_loadEnded settled stand agrees command]
    rfl
  have words : descriptorOfWords [a, b, c, d] = desc := rfl
  refine ⟨fun passed => event four ?_, fun failed => event four ?_, event rfl ?_⟩
  · rw [State.completeLoad, words]
    simp only [if_pos passed]
    rw [State.validate, rotationAfter_load, State.endWindowHold_setWindow]
  · rw [State.completeLoad, words]
    simp only [if_neg failed]
    rw [State.failLoad, State.endWindowHold_setWindow]
    rfl
  · rw [State.completeLoad, State.failLoad, State.endWindowHold_setWindow]
    rfl

/-- Settles O42. -/
theorem refetchesComplete : Obligations.RefetchesComplete := by
  intro s i rest f fs k a b c d x ready issued owner length fetches current state p desc r kept refuses
  have settled := (State.ready_iff.1 ready).2
  have four : answerFits (.ok [a, b, c, d]) i = true := answerFits_ok (by simp [length])
  have words : descriptorOfWords [a, b, c, d] = desc := rfl
  obtain ⟨z, taken⟩ : ∃ z, z = ({ s with issued := rest, fetches := fs } : State) := ⟨_, rfl⟩
  have event {ans : Answer} {u : State} (fits : answerFits ans i = true)
      (completes : z.completeRefetch f.engine f.window k ans = u) :
      exec (.descriptorFetchAnswer ans) s = .next u.settle := by
    subst taken
    exact exec_descriptorFetchAnswer ready issued owner fits fetches current
      ((State.fetchCompletion_of_refetch (by exact state)).trans completes)
  have revoked (failed : desc.detail f.engine ≠ 0) : z.completeRefetch f.engine f.window k (.ok [a, b, c, d]) =
      z.failRefetch f.engine f.window k .revoked := by
    rw [State.completeRefetch, words]
    exact if_neg failed
  refine ⟨fun passed => ?valid, fun unheld => ?unheld, fun held oldest => ?held⟩
  case valid =>
    have completes : z.completeRefetch f.engine f.window k (.ok [a, b, c, d]) = s.fetched rest fs f.engine f.window
        ⟨.valid k desc.checked, if desc.rotating then (if r.toNat < desc.middle then r else desc.initial) else 0⟩ := by
      rw [State.completeRefetch, words]
      simp only [if_pos passed]
      rw [State.validate, rotationAfter_refetch, taken, State.endWindowHold_setWindow]
      rfl
    rw [event four completes, State.settle_of_settled (State.settled_fetched settled)]
    rfl
  case unheld =>
    have emptied (y : FaultKind) : z.failRefetch f.engine f.window k y = kept ⟨.empty, 0⟩ := by
      rw [taken]
      exact if_neg unheld
    have still : (kept ⟨.empty, 0⟩).settled = true := settled
    refine ⟨fun failed => ?_, ?_⟩
    · rw [event four ((revoked failed).trans (emptied .revoked)), State.settle_of_settled still]
    · rw [event (ans := .error) rfl (emptied .tableError), State.settle_of_settled still]
  case held =>
    have refused (y : FaultKind) : z.failRefetch f.engine f.window k y =
        (kept ⟨.empty, 0⟩).refuseFault p x.req y (some f.window) (some k) none := by
      have waits : oldestWaiting (z.queueOf (.engine f.engine)) = some x := by rw [taken]; exact oldest
      have hold : z.holdOf (.engine f.engine) = some (.window f.window) := by rw [taken]; exact held
      rw [State.failRefetch, if_pos hold, waits, taken]
      rfl
    refine ⟨fun failed => ?_, ?_⟩
    · rw [event four ((revoked failed).trans (refused .revoked))]
      rfl
    · rw [event (ans := .error) rfl (refused .tableError)]
      rfl

end Sys2Proof.Machine

/-! The ends of START's failure (R161, R164), RELOAD_MAP (R87) and CONFIGURE_PORT (R148, R168). -/

namespace Sys2Proof.Machine

section
variable {s t : State} {i : Issued} {rest : List Issued} {prior : OpState} {x y ans : Answer}

theorem PerEngine.eq_of_get {α : Type} {a b : PerEngine α} (same : ∀ e, a.get e = b.get e) : a = b := by
  obtain ⟨a1, a2, a3⟩ := a
  exact congr (congr (congrArg PerEngine.mk (same .p1)) (same .p2)) (same .p3)

theorem PerPort.eq_of_get {α : Type} {a b : PerPort α} (same : ∀ p, a.get p = b.get p) : a = b := by
  obtain ⟨a0, as⟩ := a
  exact congr (congrArg PerPort.mk (same .p0)) (PerEngine.eq_of_get fun e => same (.engine e))

/-! ### START's reads -/

theorem exec_startReadAnswer {v : State} (ready : s.ready = true) (issued : s.issued = i :: rest)
    (owner : i.owner = .ctl .startRead) (fits : answerFits ans i = true)
    (acts : ({ s with issued := rest } : State).answerStartRead i ans = v) :
    exec (.startReadAnswer ans) s = .next v.settle :=
  exec_of_taken ready rfl issued (Owner.isCtl_of_eq owner) fits acts

theorem State.answerStartRead_of_void (void : i.void = true) : s.answerStartRead i ans = s := if_pos void

theorem State.answerStartRead_of_first (effective : i.void = false) (command : s.command = some (.start prior none)) :
    s.answerStartRead i ans = s.setCommand (some (.start prior (some ans))) := by
  unfold State.answerStartRead
  rw [if_neg (by simp [effective]), command]

theorem State.answerStartRead_of_second (effective : i.void = false)
    (command : s.command = some (.start prior (some x))) : s.answerStartRead i ans = s.endStart prior x ans := by
  unfold State.answerStartRead
  rw [if_neg (by simp [effective]), command]

theorem State.endStart_of_error (error : x = .error ∨ y = .error) :
    s.endStart prior x y = s.startFailure prior .readError 0 := by
  rcases error with rfl | rfl
  · cases y <;> rfl
  · cases x <;> rfl

theorem State.endStart_of_invalid {d d' : List Word} (invalid : (configurationOf (d ++ d')).detail s.anc ≠ 0) :
    s.endStart prior (.ok d) (.ok d') =
      s.startFailure prior .configInvalid ((configurationOf (d ++ d')).detail s.anc) := if_neg invalid

theorem State.endStart_of_valid {d d' : List Word} (valid : (configurationOf (d ++ d')).detail s.anc = 0) :
    s.endStart prior (.ok d) (.ok d') = s.startSuccess (configurationOf (d ++ d')) := if_pos valid

/-- A command in progress that has received an answer and waits for another. -/
theorem settled_setCommand (settled : s.settled = true) (c : Option Command) :
    ({ s with issued := rest, command := c } : State).settled = true := settled

/-- START in progress: LOADING, taken in BOOT or in HALTED (R161). -/
theorem State.starting (agrees : s.commandAgrees = true) {first : Option Answer}
    (command : s.command = some (.start prior first)) : s.opState = .loading ∧ (prior = .boot ∨ prior = .halted) := by
  obtain ⟨fits, -, -⟩ := State.commandAgrees_iff.1 agrees
  simpa [State.commandFits, command] using fits

/-! ### The failure of START -/

/-- What the failure of START leaves of an engine port before the responses are given (R164, R18). -/
def PortUnit.startFailed (prior : OpState) (u : PortUnit) : PortUnit :=
  if prior = .halted then u.refusing QEntry.isWaiting .halted
  else if u.hold = some .loading then
    { u with queue := updateFirst QEntry.isWaiting (QEntry.decide (.refused .notActive)) u.queue, hold := none }
  else { u with hold := none }

/-- The state back in which START was taken. -/
def State.startFailed (s : State) (prior : OpState) : State :=
  { s with
    opState := prior
    ports := ⟨{ s.unit .p0 with hold := none }, s.ports.engines.map (PortUnit.startFailed prior)⟩ }

/-- The engine request held in LOADING on a port, refused (R164). -/
def PortUnit.heldRefused (u : PortUnit) : PortUnit :=
  if u.hold = some .loading then
    { u with queue := updateFirst QEntry.isWaiting (QEntry.decide (.refused .notActive)) u.queue, hold := none }
  else u

/-- The refusal of the request that one port holds in LOADING. -/
def State.refuseHeld (s : State) (e : Engine) : State :=
  if s.holdOf (.engine e) = some .loading then s.decideWaiting (.engine e) (.refused .notActive) else s

theorem State.refuseHeld_eq (s : State) (e : Engine) :
    s.refuseHeld e = { s with ports := s.ports.set (.engine e) (s.unit (.engine e)).heldRefused } := by
  unfold State.refuseHeld PortUnit.heldRefused
  by_cases held : (s.unit (.engine e)).hold = some .loading
  · have here : s.holdOf (.engine e) = some .loading := held
    rw [if_pos held, if_pos here]
    rfl
  · have kept : s.ports.set (.engine e) (s.unit (.engine e)) = s.ports := s.ports.set_get_same (.engine e)
    have here : ¬ s.holdOf (.engine e) = some .loading := held
    rw [if_neg held, if_neg here, kept]

theorem State.startFailure_eq (o : CommandOutcome) (n : Nat) : s.startFailure prior o n =
    ((if prior = .halted then s.refuseEngineEntries QEntry.isWaiting .halted
      else ((s.refuseHeld .p1).refuseHeld .p2).refuseHeld .p3).changeOp prior).finalResult 1 o n := rfl

theorem State.refuseHeld_all : ((s.refuseHeld .p1).refuseHeld .p2).refuseHeld .p3 =
    { s with ports := ⟨s.ports.p0, s.ports.engines.map PortUnit.heldRefused⟩ } := by
  simp only [State.refuseHeld_eq]
  rfl

theorem State.startFailure_resulted (loading : s.opState = .loading) (moves : prior ≠ .loading) (o : CommandOutcome)
    (n : Nat) : s.startFailure prior o n = (s.startFailed prior).resulted 1 o n := by
  have left : (if prior = .halted then s.refuseEngineEntries QEntry.isWaiting .halted
      else ((s.refuseHeld .p1).refuseHeld .p2).refuseHeld .p3).changeOp prior =
        { s.startFailed prior with statusChanged := true } := by
    by_cases halted : prior = .halted
    · have moves : (s.refuseEngineEntries QEntry.isWaiting .halted).opState ≠ prior := by
        rw [State.refuseEngineEntries_eq, halted, loading]
        simp
      rw [if_pos halted, State.changeOp_eq, if_neg moves, decide_eq_true moves, Bool.or_true]
      simp only [State.startFailed, PerEngine.map, PortUnit.startFailed, if_pos halted]
      rfl
    · rw [if_neg halted, State.refuseHeld_all, State.changeOp_eq]
      have moves : ¬ s.opState = prior := fun same => moves (same.symm.trans loading)
      have unheld (u : PortUnit) : ({ u.heldRefused with hold := none } : PortUnit) = u.startFailed prior := by
        rw [PortUnit.heldRefused, PortUnit.startFailed, if_neg halted]
        split <;> rfl
      simp only [ne_eq, moves, not_false_eq_true, decide_true, Bool.or_true]
      simp only [State.startFailed, PerEngine.map, ← unheld]
      rfl
  have unheld (q : Port) : ((s.startFailed prior).holdOf q).any Hold.ofCommand = false := by
    have none_held : (s.startFailed prior).holdOf q = none := by
      cases q with
      | p0 => rfl
      | engine e =>
        have unit : (s.startFailed prior).unit (.engine e) = (s.unit (.engine e)).startFailed prior :=
          s.ports.engines.get_map e _
        rw [State.holdOf, unit, PortUnit.startFailed]
        split
        · rfl
        · split <;> rfl
    rw [none_held]
    rfl
  rw [State.startFailure_eq, left, 
    State.finalResult_resulted (t := { s.startFailed prior with statusChanged := true }) rfl unheld]
  rfl

theorem State.settle_startFailed (settled : s.settled = true) (agrees : s.commandAgrees = true)
    (command : s.command = some (.start prior (some x))) (o : CommandOutcome) (n : Nat) :
    (s.startFailure prior o n).settle = ({ s with
      opState := prior
      ports := ⟨{ s.unit .p0 with hold := none }, s.ports.engines.map fun u =>
        if prior = .halted then u.refuseAll QEntry.isWaiting .halted
        else if u.hold = some .loading then u.respond (.refused .notActive) else { u with hold := none }⟩ } :
          State).afterResult 1 o n true := by
  obtain ⟨ports, -, irq, unchanged⟩ := s.settled_iff.1 settled
  obtain ⟨loading, taken_in⟩ := State.starting agrees command
  have moves : prior ≠ .loading := by rcases taken_in with rfl | rfl <;> simp
  have not_due : (s.startFailed prior).stopDue = false :=
    State.stopDue_of_not_stopping (by rcases taken_in with rfl | rfl <;> simp [State.startFailed])
  have reporting : (s.startFailed prior).reporting = true := State.reporting_of_busy (s := s) agrees command
  have engine (e : Engine) : ((s.unit (.engine e)).startFailed prior).answer =
      if prior = .halted then (s.unit (.engine e)).refuseAll QEntry.isWaiting .halted
      else if (s.unit (.engine e)).hold = some .loading then (s.unit (.engine e)).respond (.refused .notActive)
      else { s.unit (.engine e) with hold := none } := by
    rw [PortUnit.startFailed]
    by_cases halted : prior = .halted
    · rw [if_pos halted, if_pos halted]
      rfl
    · rw [if_neg halted, if_neg halted]
      split
      · rfl
      · exact PortUnit.answer_of_settled _ (ports (.engine e))
  have answered : (s.startFailed prior).concluded = { s with
      opState := prior
      ports := ⟨{ s.unit .p0 with hold := none }, s.ports.engines.map fun u =>
        if prior = .halted then u.refuseAll QEntry.isWaiting .halted
        else if u.hold = some .loading then u.respond (.refused .notActive) else { u with hold := none }⟩ } := by
    have units : (s.startFailed prior).ports.map PortUnit.answer = ⟨{ s.unit .p0 with hold := none },
        s.ports.engines.map fun u => if prior = .halted then u.refuseAll QEntry.isWaiting .halted
          else if u.hold = some .loading then u.respond (.refused .notActive) else { u with hold := none }⟩ := by
      refine congr (congrArg PerPort.mk (State.answer_p0_unheld settled)) (PerEngine.eq_of_get fun e => ?_)
      rw [PerEngine.get_map, State.startFailed, PerEngine.get_map, PerEngine.get_map]
      exact engine e
    have level : (s.startFailed prior).irqLevel = s.irqAsserted := irq.symm
    have quiet : (s.startFailed prior).statusChanged = false := unchanged
    rw [State.concluded, units, level, quiet, ← unchanged]
    simp only [unchanged, Bool.false_and, Bool.false_eq_true, if_false, List.append_nil]
    rfl
  rw [State.startFailure_resulted loading moves, State.settle_resulted not_due reporting, answered]

end

/-- Settles O43. -/
theorem startWaitsAndFails : Obligations.StartWaitsAndFails := by
  refine ⟨fun s i rest ans prior ready issued owner fits => ⟨fun void => ?_, fun effective command => ?_⟩,
    fun s i rest x y prior d d' ready agrees issued owner effective fits command => ?_⟩
  · have settled : ({ s with issued := rest } : State).settled = true := (State.ready_iff.1 ready).2
    rw [exec_startReadAnswer ready issued owner fits (State.answerStartRead_of_void void),
      State.settle_of_settled settled]
  · have settled := settled_setCommand (rest := rest) (State.ready_iff.1 ready).2 (some (.start prior (some ans)))
    rw [exec_startReadAnswer ready issued owner fits (State.answerStartRead_of_first effective (by exact command))]
    exact congrArg Host.Outcome.next (State.settle_of_settled settled)
  · intro failed
    have settled : ({ s with issued := rest } : State).settled = true := (State.ready_iff.1 ready).2
    have fails {o : CommandOutcome} {n : Nat} (ends : ({ s with issued := rest } : State).endStart prior x y =
        ({ s with issued := rest } : State).startFailure prior o n) :
        exec (.startReadAnswer y) s = .next (failed o n) := by
      rw [exec_startReadAnswer ready issued owner fits
        ((State.answerStartRead_of_second effective (by exact command)).trans ends),
        State.settle_startFailed settled (by exact agrees) (by exact command)]
      rfl
    refine ⟨fun error => fails (State.endStart_of_error error), ?_⟩
    rintro rfl rfl invalid
    exact fails (State.endStart_of_invalid (by exact invalid))

end Sys2Proof.Machine

/-! The ends of RELOAD_MAP (R87) and of CONFIGURE_PORT (R148, R168), and the success of START (R163). -/

namespace Sys2Proof.Machine

section
variable {s : State} {i : Issued} {rest : List Issued} {x y ans : Answer} {p : Port} {e : Engine} {w : Word}

/-! ### RELOAD_MAP -/

theorem exec_reloadMapReadAnswer {v : State} (ready : s.ready = true) (issued : s.issued = i :: rest)
    (owner : i.owner = .ctl .reloadRead) (fits : answerFits ans i = true)
    (acts : ({ s with issued := rest } : State).answerReloadRead i ans = v) :
    exec (.reloadMapReadAnswer ans) s = .next v.settle :=
  exec_of_taken ready rfl issued (Owner.isCtl_of_eq owner) fits acts

theorem State.answerReloadRead_of_void (void : i.void = true) : s.answerReloadRead i ans = s := if_pos void

theorem State.answerReloadRead_of_first (effective : i.void = false) (command : s.command = some (.reloadMap none)) :
    s.answerReloadRead i ans = s.setCommand (some (.reloadMap (some ans))) := by
  unfold State.answerReloadRead
  rw [if_neg (by simp [effective]), command]

theorem State.answerReloadRead_of_second (effective : i.void = false)
    (command : s.command = some (.reloadMap (some x))) : s.answerReloadRead i ans = s.endReload x ans := by
  unfold State.answerReloadRead
  rw [if_neg (by simp [effective]), command]

theorem State.endReload_of_error (error : x = .error ∨ y = .error) : s.endReload x y = s.finishReload .readError 0 := by
  rcases error with rfl | rfl
  · cases y <;> rfl
  · cases x <;> rfl

theorem State.finishReload_resulted (busy : s.command.isSome = true) (o : CommandOutcome) (n : Nat) :
    s.finishReload o n = ({ s with ports := s.portsUnheld } : State).resulted 10 o n := by
  have unheld : (s.finalResult 10 o n).portsUnheld = s.portsUnheld := by
    rw [State.finalResult_eq]
    exact s.portsUnheld_endHolds Hold.ofCommand
  rw [State.finishReload, State.portsUnheld_eq, unheld, State.finalResult_eq, busy]
  simp only [Bool.or_true, Bool.true_or]
  rfl

/-- The event in which RELOAD_MAP ends, with the map then in force (R87). -/
theorem State.settle_finishReload (settled : s.settled = true) (agrees : s.commandAgrees = true)
    (command : s.command = some (.reloadMap (some x))) (o : CommandOutcome) (n : Nat) :
    (s.finishReload o n).settle = ({ s with ports := s.portsUnheld } : State).afterResult 10 o n true := by
  have active : s.opState = .active := State.active_of_command agrees command (by simp) (by simp)
  have reporting := State.reporting_of_busy agrees command
  have still := State.settled_of_unheld (op := s.opState) settled (by simp [active])
  rw [State.finishReload_resulted (by simp [command]), State.settle_resulted, State.concluded_of_settled]
  · exact still
  · exact State.stopDue_of_not_stopping (by simp [active])
  · exact reporting

end

/-- Settles O45. -/
theorem reloadMapEnds : Obligations.ReloadMapEnds := by
  intro s i rest x y w d d' ready issued owner fits ended
  have settled : ({ s with issued := rest } : State).settled = true := (State.ready_iff.1 ready).2
  refine ⟨fun void => ?_, fun effective command => ?_, fun effective agrees command => ?_⟩
  · rw [exec_reloadMapReadAnswer ready issued owner fits (State.answerReloadRead_of_void void),
      State.settle_of_settled settled]
  · rw [exec_reloadMapReadAnswer ready issued owner fits (State.answerReloadRead_of_first effective (by exact command))]
    exact congrArg Host.Outcome.next (State.settle_of_settled (by exact settled))
  · have ends {m : AttributeMap} {o : CommandOutcome} {n : Nat}
        (outcome : ({ s with issued := rest } : State).endReload x y =
          ({ s with issued := rest, map := m } : State).finishReload o n) :
        exec (.reloadMapReadAnswer y) s = .next (ended m o n) := by
      have still : ({ s with issued := rest, map := m } : State).settled = true := settled
      rw [exec_reloadMapReadAnswer ready issued owner fits
        ((State.answerReloadRead_of_second effective (by exact command)).trans outcome),
        State.settle_finishReload still (by exact agrees) (by exact command)]
      rfl
    refine ⟨fun error => ends (State.endReload_of_error error), ?_⟩
    rintro rfl rfl
    refine ⟨fun fourth => ends (if_pos fourth), fun no_fourth hole => ends ?_, fun no_fourth no_hole => ends ?_⟩
    · exact (if_neg (by simp [no_fourth])).trans (if_pos hole)
    · have no_hole : ¬ holeInvalid (rangesOf d') ({ s with issued := rest } : State).zone = true := by
        have same : ({ s with issued := rest } : State).zone = s.zone := rfl
        rw [same, no_hole]
        simp
      exact (if_neg (by simp [no_fourth])).trans (if_neg no_hole)

section
variable {s : State} {i : Issued} {rest : List Issued} {ans : Answer} {p : Port} {e : Engine} {w : Word}

/-! ### CONFIGURE_PORT -/

theorem exec_configurePortReadAnswer {v : State} (ready : s.ready = true) (issued : s.issued = i :: rest)
    (owner : i.owner = .ctl .portRead) (fits : answerFits ans i = true)
    (acts : ({ s with issued := rest } : State).answerPortRead i ans = v) :
    exec (.configurePortReadAnswer ans) s = .next v.settle :=
  exec_of_taken ready rfl issued (Owner.isCtl_of_eq owner) fits acts

theorem State.answerPortRead_of_void (void : i.void = true) : s.answerPortRead i ans = s := if_pos void

theorem State.answerPortRead_of_effective (effective : i.void = false)
    (command : s.command = some (.configurePort p)) : s.answerPortRead i ans = s.endConfigure p ans := by
  unfold State.answerPortRead
  rw [if_neg (by simp [effective]), command]

/-- The hold of a Port Unit once CONFIGURE_PORT has ended (R148). -/
def PortUnit.unconfigured (u : PortUnit) : PortUnit :=
  if u.hold = some .configurePort ∨ u.hold = some .configureLapsed then { u with hold := none } else u

theorem PortUnit.settled_unconfigured (u : PortUnit) : u.unconfigured.settled = u.settled := by
  unfold PortUnit.unconfigured
  split <;> rfl

/-- The holds of a command in progress are those of CONFIGURE_PORT where RELOAD_MAP holds none. -/
theorem PortUnit.unconfigured_eq {u : PortUnit} (no_reload : u.hold ≠ some .reloadMap) :
    (if u.hold.any Hold.ofCommand then { u with hold := none } else u) = u.unconfigured := by
  unfold PortUnit.unconfigured
  obtain ⟨queue, link, given, hold, place⟩ := u
  rcases hold with _ | hold
  · rfl
  · cases hold with
    | reloadMap => exact absurd rfl no_reload
    | loading | configurePort | configureLapsed | window | bufferSpace => simp [Hold.ofCommand]

/-- A state in which CONFIGURE_PORT ends, with its holds ended. -/
theorem State.finalResult_of_configuring (busy : s.command.isSome = true)
    (no_reload : ∀ q, s.holdOf q ≠ some .reloadMap) (o : CommandOutcome) (n : Nat) :
    s.finalResult 9 o n =
      ({ s with ports := s.ports.map PortUnit.unconfigured, statusChanged := false } : State).resulted 9 o n := by
  have ports : (s.ports.map fun u => if u.hold.any Hold.ofCommand then { u with hold := none } else u) =
      s.ports.map PortUnit.unconfigured := PerPort.eq_of_get fun q => by
    rw [PerPort.get_map, PerPort.get_map]
    exact PortUnit.unconfigured_eq (no_reload q)
  rw [State.finalResult_eq, ports, busy]
  simp only [Bool.or_true, Bool.true_or]
  rfl

/-- The event in which CONFIGURE_PORT ends. -/
theorem State.settle_of_configured (settled : s.settled = true) (agrees : s.commandAgrees = true)
    (command : s.command = some (.configurePort p)) {t : State} (ports : t.ports = s.ports.map PortUnit.unconfigured ∨
      ∃ e, t.ports = (s.ports.map PortUnit.unconfigured).set (.engine e) { s.unit (.engine e) with hold := none })
    (opState : t.opState = s.opState) (reporting : t.reporting = s.reporting) (irq : t.irqAsserted = t.irqLevel)
    (unchanged : t.statusChanged = false) (o : CommandOutcome) (n : Nat) :
    (t.resulted 9 o n).settle = t.afterResult 9 o n true := by
  have active : t.opState = .active := by rw [opState, State.active_of_command agrees command (by simp) (by simp)]
  have not_due := State.stopDue_of_not_stopping (s := t) (by simp [active])
  have unconfigured (q : Port) : ((s.ports.map PortUnit.unconfigured).get q).settled = true := by
    rw [PerPort.get_map, PortUnit.settled_unconfigured]
    exact s.unit_settled settled q
  have still : t.settled = true := by
    refine t.settled_iff.2 ⟨fun q => ?_, not_due, irq, unchanged⟩
    rcases ports with same | ⟨e, moved⟩
    · rw [State.unit, same]
      exact unconfigured q
    · rw [State.unit, moved]
      by_cases here : q = .engine e
      · subst here
        rw [PerPort.get_set_same]
        exact s.unit_settled settled (.engine e)
      · rw [PerPort.get_set_other _ _ _ _ here]
        exact unconfigured q
  rw [State.settle_resulted not_due (by rw [reporting, State.reporting_of_busy agrees command]),
    State.concluded_of_settled still]

theorem State.no_reload_hold (stand : s.holdsStand = true) (not_reloading : s.reloading = false) (q : Port) :
    s.holdOf q ≠ some .reloadMap := by
  intro hold
  cases q with
  | p0 =>
    have stands := s.supervisorHoldStands_of_hold stand hold
    rw [State.supervisorHoldStands, not_reloading] at stands
    cases stands
  | engine e =>
    have stands := s.holdStands_of_hold stand hold
    rw [State.holdStands, not_reloading] at stands
    cases stands

theorem configuredState_eq (st : PortState) (enable : Bool) : configuredState st enable =
    if enable = false then .disabled else if st = .disabled then .opened else st := by
  cases enable <;> cases st <;> rfl

theorem State.endConfigure_word (s : State) (p : Port) (w : Word) : s.endConfigure p (.ok [w]) =
    if marksChecked p w = true then s.finalResult 9 .configInvalid 9
    else if limitInvalid w = true then s.finalResult 9 .configInvalid 10
    else (s.configure p w).finalResult 9 .ok 0 := rfl

/-- The ports of an engine port configured, with every hold of CONFIGURE_PORT ended. -/
theorem State.portsConfigured (s : State) (e : Engine) :
    (s.ports.set (.engine e) (s.unit (.engine e)).afterPortChange).map PortUnit.unconfigured =
      (s.ports.map PortUnit.unconfigured).set (.engine e) { s.unit (.engine e) with hold := none } := by
  have ended (u : PortUnit) : u.afterPortChange.unconfigured = { u with hold := none } := by
    unfold PortUnit.afterPortChange PortUnit.unconfigured
    split <;> simp
  refine PerPort.eq_of_get fun q => ?_
  rw [PerPort.get_map]
  by_cases here : q = .engine e
  · subst here
    rw [PerPort.get_set_same, PerPort.get_set_same, ended]
  · rw [PerPort.get_set_other _ _ _ _ here, PerPort.get_set_other _ _ _ _ here, PerPort.get_map]

end

/-- Settles O46. -/
theorem configurePortEnds : Obligations.ConfigurePortEnds := by
  refine ⟨fun s i rest ans ready issued owner void fits => ?_,
    fun s i rest p e w ready stand agrees issued owner effective length command => ?_⟩
  · have settled : ({ s with issued := rest } : State).settled = true := (State.ready_iff.1 ready).2
    rw [exec_configurePortReadAnswer ready issued owner fits (State.answerPortRead_of_void void),
      State.settle_of_settled settled]
  · intro ended unheld next
    obtain ⟨-, settled⟩ := State.ready_iff.1 ready
    obtain ⟨-, -, irq, unchanged⟩ := s.settled_iff.1 settled
    have one : answerFits (.ok [w]) i = true := answerFits_ok (by simp [length])
    have no_reload := State.no_reload_hold stand (by simp [State.reloading, command])
    have busy : s.command.isSome = true := by simp [command]
    obtain ⟨z, taken⟩ : ∃ z, z = ({ s with issued := rest } : State) := ⟨_, rfl⟩
    have event {ans : Answer} {t v : State} {o : CommandOutcome} {n : Nat} (fits : answerFits ans i = true)
        (ends : z.endConfigure p ans = t.finalResult 9 o n) (t_busy : t.command.isSome = true)
        (t_no_reload : ∀ q, t.holdOf q ≠ some .reloadMap)
        (result : (({ t with ports := t.ports.map PortUnit.unconfigured, statusChanged := false } : State).resulted 9 o
          n).settle = v) : exec (.configurePortReadAnswer ans) s = .next v := by
      subst taken
      rw [exec_configurePortReadAnswer ready issued owner fits
        ((State.answerPortRead_of_effective effective (by exact command)).trans ends),
        State.finalResult_of_configuring t_busy t_no_reload, result]
    have kept {ans : Answer} {o : CommandOutcome} {n : Nat} (fits : answerFits ans i = true)
        (ends : z.endConfigure p ans = z.finalResult 9 o n) :
        exec (.configurePortReadAnswer ans) s = .next (ended unheld o n) := by
      refine event fits ends (by rw [taken]; exact busy) (by rw [taken]; exact no_reload) ?_
      rw [State.settle_of_configured settled agrees command (.inl (by rw [taken])) (by rw [taken]) (by rw [taken])
        (by rw [taken]; exact irq) rfl, taken, ← unchanged]
      rfl
    have supervisor_marks : ¬ marksChecked .p0 w = true := Bool.false_ne_true
    refine ⟨kept rfl rfl, fun supervisor limit => kept one ?_, fun supervisor limit => ?supervisor,
      fun engine marks => kept one ?_, fun engine marks limit => kept one ?_, fun engine marks limit => ?engine⟩
    · subst supervisor
      rw [State.endConfigure_word, if_neg supervisor_marks, if_pos limit]
    case supervisor =>
      subst supervisor
      have ends : z.endConfigure .p0 (.ok [w]) =
          ({ z with p0LockLimit := w.extractLsb' 24 8 } : State).finalResult 9 .ok 0 := by
        rw [State.endConfigure_word, if_neg supervisor_marks, if_neg (by simp [limit])]
        rfl
      refine event one ends (by rw [taken]; exact busy) (by rw [taken]; exact no_reload) ?_
      rw [State.settle_of_configured settled agrees command (.inl (by rw [taken])) (by rw [taken]) (by rw [taken])
        (by rw [taken]; exact irq) rfl, taken, ← unchanged]
      rfl
    · subst engine
      rw [State.endConfigure_word]
      exact if_pos marks
    · subst engine
      have unmarked : ¬ marksChecked (.engine e) w = true := by rw [marksChecked, marks]; simp
      rw [State.endConfigure_word, if_neg unmarked, if_pos limit]
    case engine =>
      subst engine
      have to_next : configuredState (s.eng e).state (settingsOf w).enable = next := configuredState_eq _ _
      have unmarked : ¬ marksChecked (.engine e) w = true := by rw [marksChecked, marks]; simp
      have ends : z.endConfigure (.engine e) (.ok [w]) = (z.configure (.engine e) w).finalResult 9 .ok 0 := by
        rw [State.endConfigure_word, if_neg unmarked, if_neg (by simp [limit])]
      have configured : z.configure (.engine e) w = { s with
          issued := rest
          engines := s.engines.set e { s.eng e with settings := settingsOf w, state := next }
          ports := if (s.eng e).state = next then s.ports
            else s.ports.set (.engine e) (s.unit (.engine e)).afterPortChange
          statusChanged := decide ((s.eng e).state ≠ next) } := by
        rw [taken, State.configure, State.setEng_eq, State.changePortState_eq, ← to_next]
        simp only [State.eng, PerEngine.get_set_same, PerEngine.set_set_same, unchanged, Bool.false_or]
        rfl
      have hold_kept (q : Port) : (z.configure (.engine e) w).holdOf q ≠ some .reloadMap := by
        rw [configured, State.holdOf, State.unit]
        dsimp only
        split
        · exact no_reload q
        · by_cases here : q = .engine e
          · subst here
            rw [PerPort.get_set_same, PortUnit.afterPortChange]
            dsimp only
            split <;> simp
          · rw [PerPort.get_set_other _ _ _ _ here]
            exact no_reload q
      refine event one ends (by rw [configured]; exact busy) hold_kept ?_
      obtain ⟨t, left⟩ : ∃ t, t = ({ z.configure (.engine e) w with
        ports := (z.configure (.engine e) w).ports.map PortUnit.unconfigured, statusChanged := false } : State) :=
          ⟨_, rfl⟩
      have ports : t.ports = if next = (s.eng e).state then s.ports.map PortUnit.unconfigured
          else (s.ports.map PortUnit.unconfigured).set (.engine e) { s.unit (.engine e) with hold := none } := by
        rw [left, configured]
        by_cases stays : next = (s.eng e).state
        · simp only [if_pos stays, if_pos stays.symm]
        · simp only [if_neg stays, if_neg (Ne.symm stays), State.portsConfigured]
      have known : t.ports = s.ports.map PortUnit.unconfigured ∨ ∃ e, t.ports =
          (s.ports.map PortUnit.unconfigured).set (.engine e) { s.unit (.engine e) with hold := none } := by
        rw [ports]
        split
        · exact .inl rfl
        · exact .inr ⟨e, rfl⟩
      have state : t = { s with
          issued := rest
          engines := s.engines.set e { s.eng e with settings := settingsOf w, state := next }
          ports := t.ports } := by
        rw [left, configured, ← unchanged]
      rw [← left, State.settle_of_configured (t := t) settled agrees command known (by rw [state]) (by rw [state])
        (by rw [state]; exact irq) (by rw [state]; exact unchanged), state, ports]
      rfl

end Sys2Proof.Machine

/-! The success of START (R163). -/

namespace Sys2Proof.Machine

section
variable {s : State}

/-- An engine port as START leaves it (R145, R147). -/
def EngineUnit.started (u : EngineUnit) (w : Word) : EngineUnit :=
  { u with
    state := if (settingsOf w).enable then .opened else .disabled
    settings := settingsOf w
    storm := 0 }

theorem State.startPort_eq (s : State) (e : Engine) (w : Word) : s.startPort e w = { s with
    engines := s.engines.set e ((s.eng e).started w)
    ports := (s.startPort e w).ports
    statusChanged := (s.startPort e w).statusChanged } := by
  have unfolded : s.startPort e w = ({ s with
      engines := s.engines.set e { s.eng e with settings := settingsOf w, storm := 0 } } : State).changePortState e
        (if (settingsOf w).enable then .opened else .disabled) := rfl
  rw [unfolded, State.changePortState_eq]
  simp only [State.eng, PerEngine.get_set_same, PerEngine.set_set_same, EngineUnit.started]

theorem State.portsUnheld_startPort (s : State) (e : Engine) (w : Word) :
    (s.startPort e w).portsUnheld = s.portsUnheld :=
  State.portsUnheld_changePortState _ e _

/-- The three engine ports started. -/
def State.portsStarted (s : State) (c : Configuration) : State :=
  ((s.startPort .p1 c.portWords.engines.p1).startPort .p2 c.portWords.engines.p2).startPort .p3 c.portWords.engines.p3

theorem State.portsUnheld_portsStarted (c : Configuration) : (s.portsStarted c).portsUnheld = s.portsUnheld := by
  simp only [State.portsStarted, State.portsUnheld_startPort]

theorem State.portsStarted_eq (c : Configuration) : s.portsStarted c = { s with
    engines := ⟨s.engines.p1.started c.portWords.engines.p1, s.engines.p2.started c.portWords.engines.p2,
      s.engines.p3.started c.portWords.engines.p3⟩
    ports := (s.portsStarted c).ports
    statusChanged := (s.portsStarted c).statusChanged } := by
  unfold State.portsStarted
  rw [State.startPort_eq (e := .p3), State.startPort_eq (e := .p2), State.startPort_eq (e := .p1)]
  rfl

/-- The configuration of START in force, before its engine ports are started. -/
def State.configured (s : State) (c : Configuration) : State :=
  { s with
    ring := some c.ring
    table := some c.table
    map := ⟨rangesOf c.rangeWords, defaultPostedOf c.global⟩
    engines := s.enginesEmptied
    fetches := s.fetchesCancelled
    ports := s.emptyAllWindows.ports
    p0LockLimit := (settingsOf c.portWords.p0).lockLimit }

/-- An engine port after START (R36, R145, R147). -/
def EngineUnit.fresh (w : Word) : EngineUnit :=
  ⟨if (settingsOf w).enable then .opened else .disabled, settingsOf w, 0, eightOf Window.reset⟩

/-- The state in which START has succeeded, before its result and the end of its event (R163). -/
def State.startSucceeded (s : State) (c : Configuration) : State :=
  { s with
    opState := .active
    ring := some c.ring
    table := some c.table
    map := ⟨rangesOf c.rangeWords, defaultPostedOf c.global⟩
    p0LockLimit := (settingsOf c.portWords.p0).lockLimit
    engines := c.portWords.engines.map EngineUnit.fresh
    fetches := s.fetchesCancelled
    ports := s.portsUnheld
    producer := 0
    consumer := 0
    interval := intervalOf c.global
    nextExpiry := some (s.now + intervalOf c.global)
    causes := { s.causes with halt := false } }

theorem State.startSuccess_resulted (loading : s.opState = .loading) (c : Configuration) :
    s.startSuccess c = (s.startSucceeded c).resulted 1 .ok 0 := by
  obtain ⟨d, started⟩ : ∃ d, d = (s.configured c).portsStarted c := ⟨_, rfl⟩
  have success : s.startSuccess c = ((((d.changeIndices 0 0).setInterval (intervalOf c.global)).setNextExpiry
      (some (((d.changeIndices 0 0).setInterval (intervalOf c.global)).now + intervalOf c.global))).clearHalt.changeOp
        .active).finalResult 1 .ok 0 := by
    rw [started]
    rfl
  have unheld : d.portsUnheld = s.portsUnheld := by
    rw [started, State.portsUnheld_portsStarted]
    exact State.portsUnheld_emptyAllWindows s
  have frame : d = { s.configured c with
      engines := c.portWords.engines.map EngineUnit.fresh
      ports := d.ports
      statusChanged := d.statusChanged } := by
    rw [started, State.portsStarted_eq]
    rfl
  have moves : ¬ d.opState = .active := by
    rw [frame]
    exact fun active => OpState.noConfusion (loading.symm.trans active)
  have entered : (((d.changeIndices 0 0).setInterval (intervalOf c.global)).setNextExpiry
      (some (((d.changeIndices 0 0).setInterval (intervalOf c.global)).now + intervalOf c.global))).clearHalt.changeOp
        .active = { s.startSucceeded c with statusChanged := true } := by
    rw [State.changeIndices_eq, State.changeOp_eq, State.clearHalt_eq]
    simp only [State.setInterval, State.setNextExpiry, ne_eq, moves, not_false_eq_true, decide_true,
      Bool.or_true]
    simp only [State.portsUnheld] at unheld
    simp only [if_false, State.portsUnheld, unheld]
    rw [frame]
    rfl
  have none_held (q : Port) : ((s.startSucceeded c).holdOf q).any Hold.ofCommand = false := by
    have unit : (s.startSucceeded c).unit q = { s.unit q with hold := none } := s.ports.get_map q _
    rw [State.holdOf, unit]
    rfl
  rw [success, entered,
    State.finalResult_resulted (t := { s.startSucceeded c with statusChanged := true }) rfl none_held]
  rfl

end

/-- Settles O44. -/
theorem startSucceeds : Obligations.StartSucceeds := by
  intro s i rest d d' prior ready agrees issued owner effective length command valid c started
  obtain ⟨-, settled⟩ := State.ready_iff.1 ready
  obtain ⟨ports, -, -, unchanged⟩ := s.settled_iff.1 settled
  obtain ⟨loading, -⟩ := State.starting agrees command
  obtain ⟨t, success⟩ : ∃ t, t = ({ s with issued := rest } : State).startSucceeded c := ⟨_, rfl⟩
  have not_due : t.stopDue = false := State.stopDue_of_not_stopping (by rw [success]; simp [State.startSucceeded])
  have reports : s.reporting = true := State.reporting_of_busy agrees command
  have reporting : t.reporting = true := by rw [success]; exact reports
  have event : exec (.startReadAnswer (.ok d')) s = .next (t.concluded.afterResult 1 .ok 0 true) := by
    have ends := State.answerStartRead_of_second (s := { s with issued := rest }) (ans := .ok d') effective
      (by exact command)
    rw [State.endStart_of_valid (by exact valid), State.startSuccess_resulted (by exact loading), ← success] at ends
    rw [exec_startReadAnswer ready issued owner (answerFits_ok length) ends, State.settle_resulted not_due reporting]
  refine ⟨t.concluded.afterResult 1 .ok 0 true, event, ?_⟩
  have answered : t.ports.map PortUnit.answer = s.portsUnheld := by
    rw [success]
    refine PerPort.map_unchanged _ _ fun p => ?_
    have unit : s.portsUnheld.get p = { s.unit p with hold := none } := s.unit_portsUnheld p
    have here : (({ s with issued := rest } : State).startSucceeded c).ports.get p = { s.unit p with hold := none } :=
      unit
    rw [here]
    exact PortUnit.answer_of_settled _ (ports p)
  have level : (t.concluded.afterResult 1 .ok 0 true).irqAsserted = (t.concluded.afterResult 1 .ok 0 true).irqLevel :=
    t.irqLevel_setCauses_done.symm
  have unwaiting : t.concluded.ctlUnwaiting = s.ctlUnwaiting := by
    rw [State.concluded, State.ctlUnwaiting, State.ctlUnwaiting_append_status, success]
    rfl
  dsimp only
  rw [← level]
  simp only [State.afterResult, unwaiting, Bool.true_or, if_true]
  simp only [State.concluded, answered, unchanged, reports]
  rw [success]
  rfl

end Sys2Proof.Machine

/-! Answers to controller writes (R135, R166, R169) and HALT entry (R166). -/

namespace Sys2Proof.Machine

section
variable {s : State} {i : Issued} {rest : List Issued} {ack : Ack}

theorem answerFits_ack (write : i.write = true) : answerFits (answerOfAck ack) i = true := by
  cases ack <;> simp [answerFits, answerOfAck, Issued.dataLength, write]

theorem exec_ringWriteAnswer {v : State} (ready : s.ready = true) (issued : s.issued = i :: rest)
    (owner : i.owner = .ctl .recordWrite) (write : i.write = true)
    (acts : ({ s with issued := rest } : State).answerRecord i ack = v) :
    exec (.ringWriteAnswer ack) s = .next v.settle :=
  exec_of_taken ready rfl issued (Owner.isCtl_of_eq owner) (answerFits_ack write) acts

theorem exec_statusUpdateAnswer {v : State} (ready : s.ready = true) (issued : s.issued = i :: rest)
    (owner : i.owner = .ctl .statusUpdate) (write : i.write = true)
    (acts : ({ s with issued := rest } : State).answerReport i ack = v) :
    exec (.statusUpdateAnswer ack) s = .next v.settle :=
  exec_of_taken ready rfl issued (Owner.isCtl_of_eq owner) (answerFits_ack write) acts

theorem exec_resultWriteAnswer {v : State} (ready : s.ready = true) (issued : s.issued = i :: rest)
    (owner : i.owner = .ctl .resultWrite) (write : i.write = true)
    (acts : ({ s with issued := rest } : State).answerReport i ack = v) :
    exec (.resultWriteAnswer ack) s = .next v.settle :=
  exec_of_taken ready rfl issued (Owner.isCtl_of_eq owner) (answerFits_ack write) acts

theorem State.answerRecord_of_void (void : i.void = true) : s.answerRecord i ack = s := if_pos void

theorem State.answerRecord_of_ok (effective : i.void = false) : s.answerRecord i .ok = s.advanceRing :=
  if_neg (by simp [effective])

theorem State.answerRecord_of_error (effective : i.void = false) : s.answerRecord i .error = s.haltEntry :=
  if_neg (by simp [effective])

theorem State.answerReport_of_no_effect (no_effect : ack = .ok ∨ i.void = true) : s.answerReport i ack = s := by
  rcases no_effect with rfl | void
  · rfl
  · cases ack with
    | ok => rfl
    | error => exact if_pos void

theorem State.answerReport_of_error (effective : i.void = false) : s.answerReport i .error = s.haltEntry :=
  if_neg (by simp [effective])

/-! ### A ring write answered OK -/

theorem next_index_ne {n p : Nat} (size : 1 < n) (inside : p < n) : (p + 1) % n ≠ p := by
  rcases Nat.lt_or_ge (p + 1) n with below | top
  · rw [Nat.mod_eq_of_lt below]
    omega
  · rw [show p + 1 = n by omega, Nat.mod_self]
    omega

theorem State.advanceRing_of_ring {g : RingGeometry} (ring : s.ring = some g) : s.advanceRing =
    ((s.setStaged s.staged.tail).changeIndices ((s.producer + 1) % g.size) s.consumer).raiseRingWrite := by
  unfold State.advanceRing
  rw [ring]

/-- The producer advanced and the head record gone, before the next ring write (R135). -/
def State.ringAdvanced (s : State) (p : Nat) : State := { s with producer := p, staged := s.staged.tail }

theorem State.advanceRing_eq {g : RingGeometry} (ring : s.ring = some g) (size : 1 < g.size)
    (inside : s.producer < g.size) : s.advanceRing =
      { (s.ringAdvanced ((s.producer + 1) % g.size)).raiseRingWrite with statusChanged := true } := by
  have moved : (s.setStaged s.staged.tail).changeIndices ((s.producer + 1) % g.size) s.consumer =
      { s.ringAdvanced ((s.producer + 1) % g.size) with statusChanged := true } := by
    have noted : ((s.setStaged s.staged.tail).statusChanged ||
        (decide ((s.producer + 1) % g.size ≠ (s.setStaged s.staged.tail).producer) ||
          (decide ((s.producer + 1) % g.size ≠ s.consumer) != (s.setStaged s.staged.tail).queueCause))) = true := by
      simp [next_index_ne size inside]
    rw [State.changeIndices_eq, noted]
    rfl
  rw [State.advanceRing_of_ring ring, moved, State.raiseRingWrite_setStatusChanged]

end

/-- Settles O47. -/
theorem controllerWriteAnswers : Obligations.ControllerWriteAnswers := by
  refine ⟨fun s i rest g h n tl more ready op issued owner effective write ring size inside staged => ?advance,
    fun s i rest ack ready issued write => ?others⟩
  case others =>
    intro gone
    have settled : gone.settled = true := (State.ready_iff.1 ready).2
    refine ⟨fun owner void => ?_, fun owner no_effect => ?_, fun owner no_effect => ?_, fun effective =>
      ⟨fun owner => ?_, fun owner => ?_, fun owner => ?_⟩⟩
    · rw [exec_ringWriteAnswer ready issued owner write (State.answerRecord_of_void void),
        State.settle_of_settled settled]
    · rw [exec_statusUpdateAnswer ready issued owner write (State.answerReport_of_no_effect no_effect),
        State.settle_of_settled settled]
    · rw [exec_resultWriteAnswer ready issued owner write (State.answerReport_of_no_effect no_effect),
        State.settle_of_settled settled]
    · exact exec_ringWriteAnswer ready issued owner write (State.answerRecord_of_error effective)
    · exact exec_statusUpdateAnswer ready issued owner write (State.answerReport_of_error effective)
    · exact exec_resultWriteAnswer ready issued owner write (State.answerReport_of_error effective)
  case advance =>
    intro p full moved
    obtain ⟨-, settled⟩ := State.ready_iff.1 ready
    obtain ⟨-, -, -, unchanged⟩ := s.settled_iff.1 settled
    obtain ⟨t, advanced⟩ : ∃ t, t = ({ s with issued := rest, producer := p, staged := tl } : State) := ⟨_, rfl⟩
    have acts : ({ s with issued := rest } : State).answerRecord i .ok =
      { t.raiseRingWrite with statusChanged := true } := by
      have tail : ({ s with issued := rest } : State).ringAdvanced p = t := by
        rw [advanced, State.ringAdvanced, staged]
        rfl
      rw [State.answerRecord_of_ok effective,
        State.advanceRing_eq (s := { s with issued := rest }) (g := g) (by exact ring) size (by exact inside)]
      exact congrArg (fun v : State => { v.raiseRingWrite with statusChanged := true }) tail
    have ends {l : List Staged} {raised : List CtlRequest}
        (writes : t.raiseRingWrite = { t with staged := l, ctl := s.ctl ++ raised })
        (not_status : raised.any CtlRequest.isStatus = false) :
        exec (.ringWriteAnswer .ok) s = .next (moved l raised) := by
      obtain ⟨v, left⟩ : ∃ v, v = { t.raiseRingWrite with statusChanged := true } := ⟨_, rfl⟩
      have answered : v.ports.map PortUnit.answer = s.ports := by
        rw [left, writes, advanced]
        exact State.map_answer_of_settled (s := s) settled
      have waiting : v.statusWaiting = s.statusWaiting := by
        rw [left, writes, State.statusWaiting, State.statusWaiting, List.any_append, not_status, Bool.or_false]
      have level : v.irqLevel = ({ s with producer := p } : State).irqLevel := by
        rw [left, writes, advanced]
        rfl
      rw [exec_ringWriteAnswer (ack := .ok) ready issued owner write acts, ← left, State.settle_eq, State.concluded,
        answered, waiting, level, left, writes, advanced]
      simp only [Bool.true_and, ← unchanged]
      rfl
    have staged_left : t.staged = tl := by rw [advanced]
    refine ⟨fun unraised => ends (raised := []) ?_ rfl, fun more_staged unwritten room => ends ?_ rfl⟩
    · have not_due : t.ringWriteDue = false ∨ t.staged = [] := by
        rcases unraised with none_left | full | writing
        · exact .inr (staged_left.trans none_left)
        · have ring_full : t.ringFull = true := (State.ringFull_iff (by rw [advanced]; exact ring)).2 (by
            rw [advanced]
            exact full)
          exact .inl (by simp [State.ringWriteDue, ring_full])
        · have writing : t.writingHead = true := by rw [State.writingHead, staged_left]; exact writing
          exact .inl (by simp [State.ringWriteDue, writing])
      have same : t.raiseRingWrite = t :=
        not_due.elim State.raiseRingWrite_of_not_due State.raiseRingWrite_of_none_staged
      rw [same, List.append_nil, ← staged_left]
      rw [advanced]
    · have due : t.ringWriteDue = true := by
        have not_full : t.ringFull = false := by
          rw [← Bool.not_eq_true, State.ringFull_iff (g := g) (by rw [advanced]; exact ring), advanced]
          exact room
        have pending : t.writingHead = false := by rw [State.writingHead, staged_left]; exact unwritten
        have records : t.opState.records = true := by
          rw [advanced]
          rcases op with op | op <;> simp [OpState.records, op]
        simp [State.ringWriteDue, not_full, pending, records]
      rw [State.raiseRingWrite_of_due (h := n) (rest := more) (g := g) (staged_left.trans more_staged)
        (by rw [advanced]; exact ring) due, advanced]
      rfl

end Sys2Proof.Machine

/-! HALT entry (R18, R36, R62, R88, R102, R121, R142, R152, R166). -/

namespace Sys2Proof.Machine

section
variable (s : State)

/-- The port owns the lock (R110). -/
def State.owns (p : Port) : Bool := s.lock.any fun l => decide (l.owner = p)

def Sequence.isClosing : Sequence → Bool
  | .closing _ => true
  | .free _ | .opening _ | .holding _ => false

def Sequence.isLost : Sequence → Bool
  | .free lost => lost
  | .opening _ | .holding _ | .closing _ => false

theorem Sequence.freed_eq (q : Sequence) : q.freed = .free q.isLost := by cases q <;> rfl

theorem closesLock_eq (k : Access) : closesLock k = decide (k = .unlockWrite ∨ k = .unlock) := by cases k <;> rfl

/-! ### The locks -/

/-- A Port Unit with its admitted closing request refused LOCK_LOST (R119, R121). -/
def PortUnit.closingRefused (u : PortUnit) : PortUnit :=
  { u with
    queue := updateFirst (fun z => z.isAdmitted && decide (z.req.kind = .unlockWrite ∨ z.req.kind = .unlock))
      (fun z => ⟨z.req, .decided (.refused .lockLost)⟩) u.queue }

theorem State.refuseClosing_eq (p : Port) :
    s.refuseClosing p = { s with ports := s.ports.set p (s.unit p).closingRefused } := by
  have test : (fun e : QEntry => e.isAdmitted && closesLock e.req.kind) =
      fun z => z.isAdmitted && decide (z.req.kind = .unlockWrite ∨ z.req.kind = .unlock) :=
    funext fun z => by rw [closesLock_eq]
  rw [State.refuseClosing, test]
  rfl

/-- The Port Units as HALT entry leaves P0's closing request (R121). -/
def State.portsUnlocked : PerPort PortUnit :=
  if s.owns .p0 && (s.seqOf .p0).isClosing then s.ports.set .p0 (s.unit .p0).closingRefused else s.ports

/-- The sequence records as HALT entry leaves them (R121, R110). -/
def State.seqsUnlocked : PerPort Sequence :=
  ⟨if s.owns .p0 then .free (!(s.seqOf .p0).isClosing) else s.seqOf .p0,
    ⟨.free (s.owns (.engine .p1) || (s.seqOf (.engine .p1)).isLost),
      .free (s.owns (.engine .p2) || (s.seqOf (.engine .p2)).isLost),
      .free (s.owns (.engine .p3) || (s.seqOf (.engine .p3)).isLost)⟩⟩

theorem State.engines_freed : s.seqs.engines.map Sequence.freed =
    ⟨.free (s.seqOf (.engine .p1)).isLost, .free (s.seqOf (.engine .p2)).isLost,
      .free (s.seqOf (.engine .p3)).isLost⟩ := by
  simp only [PerEngine.map, Sequence.freed_eq]
  rfl

theorem State.haltLocks_eq : s.haltLocks =
    { s with lock := none, ports := s.portsUnlocked, seqs := s.seqsUnlocked } := by
  have unowned (none_held : s.lock = none) (p : Port) : s.owns p = false := by rw [State.owns, none_held]; rfl
  have owned {l : Lock} (held : s.lock = some l) (p : Port) : s.owns p = decide (l.owner = p) := by
    rw [State.owns, held]
    rfl
  unfold State.haltLocks
  rw [State.engines_freed]
  split
  · rename_i none_held
    simp only [State.portsUnlocked, State.seqsUnlocked, unowned none_held, ← none_held]
    rfl
  · rename_i l held
    simp only [State.portsUnlocked, State.seqsUnlocked, owned held]
    split
    · rename_i e owner
      rw [owner]
      cases e <;> simp [State.setSeq, State.setSeqs, State.setLock, PerPort.set, PerEngine.set, State.seqOf,
        PerPort.get]
    · rename_i info owner record
      rw [owner] at record
      rw [owner, record]
      simp [Sequence.isClosing, State.refuseClosing_eq, State.setSeq, State.setSeqs, State.setLock, PerPort.set,
        State.seqOf, PerPort.get, State.unit]
    all_goals
      rename_i owner record
      rw [owner] at record
      rw [owner, record]
      simp [Sequence.isClosing, State.setSeq, State.setSeqs, State.setLock, PerPort.set, State.seqOf, PerPort.get]

/-! ### The Port Units and the requests raised -/

/-- Every hold ended as the operating state is entered, also where the state is not new (R18). -/
theorem State.endHolds_changeOp (st : OpState) : (s.changeOp st).endHolds (fun _ => true) = { s with
    opState := st
    ports := s.portsUnheld
    statusChanged := s.statusChanged || decide (s.opState ≠ st) } := by
  have unheld : (if s.opState = st then s.ports else s.portsUnheld).map (fun u => { u with hold := none }) =
      s.portsUnheld := by
    split
    · rfl
    · simp [State.portsUnheld, PerPort.map, PerEngine.map]
  rw [State.portsUnheld_eq, State.changeOp_eq, State.portsUnheld]
  dsimp only
  rw [unheld]

/-- The Port Units as HALT entry leaves them, before the responses that fall due (R18, R121). -/
def State.portsHalted (s : State) : PerPort PortUnit :=
  ⟨{ s.unit .p0 with
      queue := if s.owns .p0 && (s.seqOf .p0).isClosing then (s.unit .p0).closingRefused.queue else s.queueOf .p0
      hold := none },
    s.ports.engines.map fun u => u.refusing (fun z => z.isWaiting || z.isAdmitted) .halted⟩

variable {s} in
theorem State.portsUnlocked_eq_portsHalted {t : State} (lock : t.lock = s.lock) (seqs : t.seqs = s.seqs)
    (ports : t.ports = ⟨{ s.unit .p0 with hold := none },
      s.ports.engines.map fun u => u.refusing (fun z => z.isWaiting || z.isAdmitted) .halted⟩) :
    t.portsUnlocked = s.portsHalted := by
  unfold State.portsUnlocked State.portsHalted State.owns State.seqOf State.unit
  rw [lock, seqs, ports]
  split <;> rfl

/-- The controller-originated queue as HALT entry leaves it (R142, R166). -/
def State.ctlHalted (s : State) : List CtlRequest :=
  (s.ctl.filter fun r => decide (r.kind ≠ .recordWrite)).map fun r =>
    if r.kind.isConfigRead then { r with cancelled := true } else r

/-- The issued requests as HALT entry leaves them (R137, R166). -/
def State.issuedHalted (s : State) : List Issued :=
  s.issued.map fun i => match i.owner with
    | .ctl k => if k.reports || k.isConfigRead then { i with void := true } else i
    | .piece _ _ | .posted _ => i

/-- The operating state entered and the engine entries refused (R18). -/
theorem State.refuseEngineEntries_changeOp :
    ((s.changeOp .halted).endHolds fun _ => true).refuseEngineEntries (fun e => e.isWaiting || e.isAdmitted) .halted =
      { s with
        opState := .halted
        ports := ⟨{ s.unit .p0 with hold := none },
          s.ports.engines.map fun u => u.refusing (fun z => z.isWaiting || z.isAdmitted) .halted⟩
        statusChanged := s.statusChanged || decide (s.opState ≠ .halted) } := by
  rw [State.endHolds_changeOp]
  rfl

/-- The last part of HALT entry (R121, R102, R88, R152, R166). -/
theorem State.haltLocks_setHalt_eq :
    ((((s.haltLocks.setMarks false).setNextExpiry none).changeCommand none).setHalt).setStatusChanged true = { s with
      lock := none
      ports := s.portsUnlocked
      seqs := s.seqsUnlocked
      buffer := s.buffer.map fun o => o.map fun v => { v with mark := false }
      nextExpiry := none
      command := none
      causes := { s.causes with halt := true }
      statusChanged := true } := by
  rw [State.setHalt_eq, State.changeCommand_eq, State.haltLocks_eq]
  rfl

/-- The first part of HALT entry (R142, R166, R36, R62). -/
theorem State.emptyAllWindows_discardStaged : s.discardStaged.haltRequests.emptyAllWindows = { s with
    staged := []
    causes := { s.causes with overflow := s.causes.overflow || !s.staged.isEmpty }
    statusChanged := s.statusChanged || (!s.staged.isEmpty && !s.causes.overflow)
    ctl := s.ctlHalted
    issued := s.issuedHalted
    engines := s.enginesEmptied
    fetches := s.fetchesCancelled
    ports := s.ports.map fun u => if u.hold.any Hold.onWindow then { u with hold := none } else u } := by
  rw [State.discardStaged_eq]
  rfl

theorem State.haltEntry_eq : s.haltEntry = { s with
    ports := s.portsHalted
    engines := s.enginesEmptied
    fetches := s.fetchesCancelled
    buffer := s.buffer.map fun o => o.map fun v => { v with mark := false }
    issued := s.issuedHalted
    ctl := s.ctlHalted
    lock := none
    seqs := s.seqsUnlocked
    staged := []
    nextExpiry := none
    opState := .halted
    command := none
    causes := { s.causes with halt := true, overflow := s.causes.overflow || !s.staged.isEmpty }
    statusChanged := true } := by
  obtain ⟨a, emptied⟩ : ∃ a, a = s.discardStaged.haltRequests.emptyAllWindows := ⟨_, rfl⟩
  obtain ⟨b, refused⟩ : ∃ b, b = ((a.changeOp .halted).endHolds fun _ => true).refuseEngineEntries
      (fun e => e.isWaiting || e.isAdmitted) .halted := ⟨_, rfl⟩
  have entry : s.haltEntry =
      ((((b.haltLocks.setMarks false).setNextExpiry none).changeCommand none).setHalt).setStatusChanged true := by
    rw [refused, emptied]
    rfl
  have engines : a.ports.engines.map (fun u => u.refusing (fun z => z.isWaiting || z.isAdmitted) .halted) =
      s.ports.engines.map fun u => u.refusing (fun z => z.isWaiting || z.isAdmitted) .halted := by
    have unit (u : PortUnit) : (if u.hold.any Hold.onWindow then { u with hold := none } else u : PortUnit).refusing
        (fun z => z.isWaiting || z.isAdmitted) .halted = u.refusing (fun z => z.isWaiting || z.isAdmitted) .halted := by
      split <;> rfl
    rw [emptied, State.emptyAllWindows_discardStaged]
    simp only [PerPort.map, PerEngine.map, unit]
  have supervisor : ({ a.unit .p0 with hold := none } : PortUnit) = { s.unit .p0 with hold := none } := by
    have unit : a.unit .p0 = if (s.unit .p0).hold.any Hold.onWindow then { s.unit .p0 with hold := none }
        else s.unit .p0 := by
      rw [emptied, State.emptyAllWindows_discardStaged]
      rfl
    rw [unit]
    split <;> rfl
  rw [State.refuseEngineEntries_changeOp, engines, supervisor, emptied, State.emptyAllWindows_discardStaged] at refused
  have unlocked : b.portsUnlocked = s.portsHalted :=
    State.portsUnlocked_eq_portsHalted (by rw [refused]) (by rw [refused]) (by rw [refused])
  rw [entry, State.haltLocks_setHalt_eq, unlocked, refused]
  rfl

/-! ### The end of the event -/

theorem State.statusWaiting_ctlHalted : s.ctlHalted.any CtlRequest.isStatus = s.statusWaiting := by
  have entry (r : CtlRequest) : (decide (r.kind ≠ .recordWrite) &&
      (if r.kind.isConfigRead then { r with cancelled := true } else r).isStatus) = r.isStatus := by
    obtain ⟨kind, _, _, _, _⟩ := r
    cases kind <;> rfl
  simp only [State.ctlHalted, List.any_map, List.any_filter, Function.comp_def, entry]
  rfl

theorem State.settle_haltEntry : s.haltEntry.settle = { s with
    ports := s.portsHalted.map PortUnit.answer
    engines := s.enginesEmptied
    fetches := s.fetchesCancelled
    buffer := s.buffer.map fun o => o.map fun v => { v with mark := false }
    issued := s.issuedHalted
    ctl := s.ctlHalted ++ if s.reporting && !s.statusWaiting then [s.statusRequest] else []
    lock := none
    seqs := s.seqsUnlocked
    staged := []
    nextExpiry := none
    opState := .halted
    command := none
    causes := { s.causes with halt := true, overflow := s.causes.overflow || !s.staged.isEmpty }
    statusChanged := false
    irqAsserted := true } := by
  obtain ⟨t, halted⟩ : ∃ t, t = s.haltEntry := ⟨_, rfl⟩
  have not_stopping : t.opState ≠ .stopping := by
    rw [halted, State.haltEntry_eq]
    simp
  have level : t.irqLevel = true := by
    rw [halted, State.haltEntry_eq]
    simp [State.irqLevel]
  have waiting : t.statusWaiting = s.statusWaiting := by
    rw [halted, State.haltEntry_eq]
    exact s.statusWaiting_ctlHalted
  rw [← halted, State.settle_of_stop_not_due _ (State.stopDue_of_not_stopping not_stopping), State.concluded, level,
    waiting, halted, State.haltEntry_eq]
  simp only [Bool.true_and]
  rfl

end

/-- Settles O48. -/
theorem haltEntryEffects : Obligations.HaltEntryEffects := by
  intro s settled
  have unchanged := (s.settled_iff.1 settled).2.2.2
  have issued : s.issuedHalted = s.issued.map fun i => match i.owner with
      | .ctl k => if k = .fetch then i else { i with void := true }
      | .piece _ _ | .posted _ => i := by
    refine List.map_congr_left fun i _ => ?_
    obtain ⟨_, _, _, _, owner, _⟩ := i
    rcases owner with ⟨_, _⟩ | _ | k
    · rfl
    · rfl
    · cases k <;> rfl
  have ctl : s.ctlHalted = (s.ctl.filter fun r => decide (r.kind ≠ .recordWrite)).map fun r =>
      if r.kind = .startRead ∨ r.kind = .reloadRead ∨ r.kind = .portRead then { r with cancelled := true } else r := by
    refine List.map_congr_left fun r _ => ?_
    obtain ⟨kind, _, _, _, _⟩ := r
    cases kind <;> rfl
  rw [State.settle_haltEntry, issued, ctl]
  simp only [unchanged]
  rfl

end Sys2Proof.Machine

/-! The two expiries (R118, R119, R152, R153) and the timebase (R177). -/

namespace Sys2Proof.Machine

section
variable {s : State} {l : Lock} {i : SeqInfo}

/-! ### The lock timer -/

theorem State.lockDue_of_lock (lock : s.lock = some l) (expired : s.now = l.start + l.limit.setWidth 16) :
    s.lockDue = true := by
  simp [State.lockDue, lock, expired]

theorem State.takeLockExpiry_of_due (lock : s.lock = some l) (due : s.lockDue = true) :
    s.takeLockExpiry = s.breakLock l := by
  unfold State.takeLockExpiry
  rw [lock]
  exact if_pos due

theorem State.takeLockExpiry_of_not_due (not_due : s.lockDue = false) : s.takeLockExpiry = s := by
  unfold State.takeLockExpiry
  rw [not_due]
  split <;> rfl

/-- A lock ended with its owner FREE and the LOST flag set (R119). -/
def State.lockLost (s : State) (l : Lock) : State :=
  { s with lock := none, seqs := s.seqs.set l.owner (.free true) }

/-- A lock ended with its owner's admitted closing request refused and the LOST flag clear (R119). -/
def State.closingLost (s : State) (l : Lock) : State :=
  { s with
    lock := none
    seqs := s.seqs.set l.owner (.free false)
    ports := s.ports.set l.owner (s.unit l.owner).closingRefused }

/-- The report of an expiry, which is made in ACTIVE and STOPPING (R119). -/
def State.reportBroken (s : State) (l : Lock) (i : SeqInfo) : State :=
  if s.opState.records then s.report (s.brokenRecord l i) else s

theorem State.breakLock_of_holding (holding : s.seqOf l.owner = .holding i) :
    s.breakLock l = (s.lockLost l).reportBroken l i := by
  simp only [State.breakLock, holding]
  rfl

theorem State.breakLock_of_opening (opening : s.seqOf l.owner = .opening i) :
    s.breakLock l = (s.lockLost l).reportBroken l i := by
  simp only [State.breakLock, opening]
  rfl

theorem State.breakLock_of_free {lost : Bool} (free : s.seqOf l.owner = .free lost) : s.breakLock l = s.lockLost l := by
  simp only [State.breakLock, free]
  rfl

theorem State.breakLock_of_closing (closing : s.seqOf l.owner = .closing i) :
    s.breakLock l = (s.closingLost l).reportBroken l i := by
  simp only [State.breakLock, closing, State.refuseClosing_eq]
  rfl

theorem exec_lockTimerExpiry (ready : s.ready = true) : exec .lockTimerExpiry s = .next s.takeLockExpiry.settle :=
  exec_of_ready ready rfl rfl

end

/-- Settles O49. -/
theorem lockTimerExpires : Obligations.LockTimerExpires := by
  intro s l i ready
  obtain ⟨-, settled⟩ := State.ready_iff.1 ready
  obtain ⟨-, not_due, irq, unchanged⟩ := s.settled_iff.1 settled
  refine ⟨fun not_due => ?none, fun lock expired => ?due⟩
  case none => rw [exec_lockTimerExpiry ready, State.takeLockExpiry_of_not_due not_due, State.settle_of_settled settled]
  case due =>
    have taken : exec .lockTimerExpiry s = .next (s.breakLock l).settle := by
      rw [exec_lockTimerExpiry ready, State.takeLockExpiry_of_due lock (State.lockDue_of_lock lock expired)]
    have record (t : State) (now : t.now = s.now) : t.brokenRecord l i = match l.owner with
        | .p0 => ⟨.lockBroken, .p0, none, .lockRead, 1, 1, i.logical, some i.logical, none, s.now⟩
        | .engine e => ⟨.lockBroken, .engine e, i.via.map Via.window, .lockRead, 1, 1, i.logical, some l.word,
            i.via.map Via.selector, s.now⟩ := by
      cases owner : l.owner <;> simp only [State.brokenRecord, State.recordOf_eq, owner, now]
    have unreported (t : State) (same : t.opState = s.opState) (not_records : s.opState.records = false) :
        t.reportBroken l i = t := by
      rw [State.reportBroken, same, not_records]
      rfl
    have reported (t : State) (same : t.opState = s.opState) (now : t.now = s.now)
      (records : s.opState.records = true) :
        t.reportBroken l i = t.report (t.brokenRecord l i) := by
      rw [State.reportBroken, same, records]
      rfl
    refine ⟨fun holding not_records => ?_, fun holding records => ?_, fun closing not_records => ?_,
      fun closing records => ?_⟩
    · rw [taken, State.breakLock_of_holding holding, unreported (s.lockLost l) rfl not_records]
      have nothing_due : (s.lockLost l).settled = true := (s.lockLost l).settled_iff.2
        ⟨(s.settled_iff.1 settled).1, State.stop_not_due_of_same (s := s) not_due rfl rfl rfl rfl rfl rfl rfl, irq,
            unchanged⟩
      rw [State.settle_of_settled nothing_due]
      rfl
    · rw [taken, State.breakLock_of_holding holding, reported (s.lockLost l) rfl rfl records, record (s.lockLost l) rfl]
      rfl
    · rw [taken, State.breakLock_of_closing closing, unreported (s.closingLost l) rfl not_records]
      rfl
    · rw [taken, State.breakLock_of_closing closing, reported (s.closingLost l) rfl rfl records,
        record (s.closingLost l) rfl]
      rfl

/-! ### The interval timer -/

section
variable {s : State}

/-- The port state changes at an expiry of the interval timer (R153). -/
def EngineUnit.leaves (u : EngineUnit) : Bool := decide (u.afterExpiry.state ≠ u.state)

/-- A Port Unit at an expiry of the interval timer (R144, R153). -/
def PortUnit.expired (u : PortUnit) (left : Bool) : PortUnit := if left then u.afterPortChange else u

theorem State.expirePort_eq (s : State) (e : Engine) : s.expirePort e = { s with
    engines := s.engines.set e (s.eng e).afterExpiry
    ports := s.ports.set (.engine e) ((s.unit (.engine e)).expired (s.eng e).leaves)
    statusChanged := s.statusChanged || (s.eng e).leaves } := by
  have kept (q : PerPort PortUnit) (p : Port) : q.set p (q.get p) = q := q.set_get_same p
  have low (u : EngineUnit) : u.storm.toNat ≤ u.settings.low.toNat ↔ u.storm ≤ u.settings.low := Iff.rfl
  by_cases exits : (s.eng e).state = .quiet ∧ ((s.eng e).storm ≤ (s.eng e).settings.low ∨ (s.eng e).settings.high = 0)
  · have opened : (s.eng e).afterExpiry = { s.eng e with storm := 0, state := .opened } := by
      rw [EngineUnit.afterExpiry, if_pos exits]
    have leaves : (s.eng e).leaves = true := by
      rw [EngineUnit.leaves, opened, exits.1]
      rfl
    have tested : s.exitTest e = s.changePortState e .opened := if_pos exits
    have moves : (s.eng e).state ≠ .opened := by simp [exits.1]
    rw [State.expirePort, tested, State.changePortState_eq, if_neg moves, leaves, opened, decide_eq_true moves]
    simp only [State.setStorm, State.setEng, State.setEngines, State.eng, PerEngine.get_set_same,
      PerEngine.set_set_same]
    rfl
  · have stays : (s.eng e).afterExpiry = { s.eng e with storm := 0 } := by
      rw [EngineUnit.afterExpiry, if_neg exits]
    have leaves : (s.eng e).leaves = false := by
      rw [EngineUnit.leaves, stays]
      simp
    have tested : s.exitTest e = s := if_neg exits
    have ports : s.ports.set (.engine e) ((s.unit (.engine e)).expired false) = s.ports := kept _ _
    rw [State.expirePort, tested, leaves, stays, ports, Bool.or_false]
    rfl

/-- The Port Units at an expiry (R153). -/
def State.portsExpired (s : State) : PerPort PortUnit :=
  ⟨s.ports.p0, ⟨(s.unit (.engine .p1)).expired (s.eng .p1).leaves, (s.unit (.engine .p2)).expired (s.eng .p2).leaves,
    (s.unit (.engine .p3)).expired (s.eng .p3).leaves⟩⟩

theorem State.takeIntervalExpiry_of_due (due : s.intervalDue = true) : s.takeIntervalExpiry = { s with
    engines := s.engines.map EngineUnit.afterExpiry
    ports := s.portsExpired
    nextExpiry := some (s.now + s.interval)
    statusChanged := s.statusChanged || ((s.eng .p1).leaves || (s.eng .p2).leaves || (s.eng .p3).leaves) } := by
  have taken : s.takeIntervalExpiry =
      (((s.expirePort .p1).expirePort .p2).expirePort .p3).setNextExpiry (some (s.now + s.interval)) := if_pos due
  simp only [taken, State.expirePort_eq, Bool.or_assoc]
  rfl

theorem State.takeIntervalExpiry_of_not_due (not_due : s.intervalDue = false) : s.takeIntervalExpiry = s := by
  rw [State.takeIntervalExpiry, not_due]
  rfl

theorem State.intervalDue_iff : s.intervalDue = true ↔ s.nextExpiry = some s.now := by
  cases next : s.nextExpiry <;> simp [State.intervalDue, next, eq_comm]

theorem exec_intervalExpiry (ready : s.ready = true) : exec .intervalExpiry s = .next s.takeIntervalExpiry.settle :=
  exec_of_ready ready rfl rfl

theorem PortUnit.settled_expired {u : PortUnit} (settled : u.settled = true) (b : Bool) :
    (u.expired b).settled = true ∧ (u.expired b).idle = u.idle := by
  cases b
  · exact ⟨settled, rfl⟩
  · exact ⟨settled, rfl⟩

/-- The end of an expiry of the interval timer: nothing but the status update falls due. -/
theorem State.settle_takeIntervalExpiry (settled : s.settled = true) (due : s.intervalDue = true) :
    s.takeIntervalExpiry.settle = { s with
      engines := s.engines.map EngineUnit.afterExpiry
      ports := s.portsExpired
      nextExpiry := some (s.now + s.interval)
      ctl := s.ctl ++ if ((s.eng .p1).leaves || (s.eng .p2).leaves || (s.eng .p3).leaves) && s.reporting &&
        !s.statusWaiting then [s.statusRequest] else [] } := by
  obtain ⟨ports, not_due, irq, unchanged⟩ := s.settled_iff.1 settled
  obtain ⟨t, taken⟩ : ∃ t, t = s.takeIntervalExpiry := ⟨_, rfl⟩
  have left := taken.trans (State.takeIntervalExpiry_of_due due)
  have idle : t.enginesIdle = s.enginesIdle := by
    rw [Bool.eq_iff_iff, State.enginesIdle_iff, State.enginesIdle_iff]
    refine forall_congr' fun e => ?_
    have unit : t.unit (.engine e) = (s.unit (.engine e)).expired (s.eng e).leaves := by
      rw [left]
      cases e <;> rfl
    rw [unit, (PortUnit.settled_expired (ports (.engine e)) _).2]
  have still_not_due : t.stopDue = false :=
    (State.stopDue_congr (s := s) (by rw [left]) idle (by rw [left]) (by rw [left]) (by rw [left]) (by rw [left])
      (by rw [left])).trans not_due
  have answered : s.portsExpired.map PortUnit.answer = s.portsExpired :=
    PerPort.map_unchanged _ _ fun p => PortUnit.answer_of_settled _ <| by
      rcases p with _ | _ | _ | _
      · exact ports .p0
      · exact (PortUnit.settled_expired (ports (.engine .p1)) _).1
      · exact (PortUnit.settled_expired (ports (.engine .p2)) _).1
      · exact (PortUnit.settled_expired (ports (.engine .p3)) _).1
  have level : t.irqLevel = s.irqAsserted := by
    rw [irq, left]
    rfl
  have waiting : t.statusWaiting = s.statusWaiting := by
    rw [left]
    rfl
  rw [← taken, State.settle_of_stop_not_due _ still_not_due, State.concluded, level, waiting, left]
  simp only [answered, unchanged, Bool.false_or]
  rfl

end

/-- Settles O50. -/
theorem intervalExpires : Obligations.IntervalExpires := by
  intro s ready
  have settled := (State.ready_iff.1 ready).2
  refine ⟨fun not_due => ?none, fun due => ?due⟩
  case none =>
    have not_due : s.intervalDue = false := by rwa [← Bool.not_eq_true, State.intervalDue_iff]
    rw [exec_intervalExpiry ready, State.takeIntervalExpiry_of_not_due not_due, State.settle_of_settled settled]
  case due =>
    rw [exec_intervalExpiry ready, State.settle_takeIntervalExpiry settled (State.intervalDue_iff.2 due)]
    rfl

/-! ### The timebase -/

section
variable {s t : State}

theorem State.now_settle (s : State) : s.settle.now = s.now := by
  have stands : s.settle = s.settle.setNow s.now := s.settle_setNow s.now
  rw [stands]
  rfl

theorem State.inReset_settle (s : State) : s.settle.inReset = s.inReset := by
  rw [State.settle_eq, State.stopIfDue]
  split <;> rfl

theorem State.reportBroken_frame (s : State) (l : Lock) (i : SeqInfo) :
    (s.reportBroken l i).now = s.now ∧ (s.reportBroken l i).nextExpiry = s.nextExpiry ∧
      (s.reportBroken l i).inReset = s.inReset ∧ (s.reportBroken l i).lock = s.lock := by
  unfold State.reportBroken
  split
  · rw [State.report_frame]
    exact ⟨rfl, rfl, rfl, rfl⟩
  · exact ⟨rfl, rfl, rfl, rfl⟩

/-- An expiry of the lock timer, by the phase of the owner's sequence record (R119). -/
theorem State.takeLockExpiry_cases (s : State) : s.takeLockExpiry = s ∨ ∃ l, s.lock = some l ∧
    ((∃ i, s.seqOf l.owner = .closing i ∧ s.takeLockExpiry = (s.closingLost l).reportBroken l i) ∨
      (∃ i, (s.seqOf l.owner = .holding i ∨ s.seqOf l.owner = .opening i) ∧
        s.takeLockExpiry = (s.lockLost l).reportBroken l i) ∨
      (∃ b, s.seqOf l.owner = .free b) ∧ s.takeLockExpiry = s.lockLost l) := by
  cases due : s.lockDue with
  | false => exact .inl (State.takeLockExpiry_of_not_due due)
  | true =>
    obtain ⟨l, lock, -⟩ : ∃ l, s.lock = some l ∧ _ := by simpa [State.lockDue, Option.any_eq_true] using due
    refine .inr ⟨l, lock, ?_⟩
    rw [State.takeLockExpiry_of_due lock due]
    cases record : s.seqOf l.owner with
    | closing i => exact .inl ⟨i, rfl, State.breakLock_of_closing record⟩
    | holding i => exact .inr (.inl ⟨i, .inl rfl, State.breakLock_of_holding record⟩)
    | opening i => exact .inr (.inl ⟨i, .inr rfl, State.breakLock_of_opening record⟩)
    | free b => exact .inr (.inr ⟨⟨b, rfl⟩, State.breakLock_of_free record⟩)

theorem State.takeLockExpiry_frame (s : State) : s.takeLockExpiry.now = s.now ∧
    s.takeLockExpiry.nextExpiry = s.nextExpiry ∧ s.takeLockExpiry.inReset = s.inReset := by
  rcases s.takeLockExpiry_cases with same | ⟨l, -, ⟨i, -, taken⟩ | ⟨i, -, taken⟩ | ⟨-, taken⟩⟩
  · rw [same]
    exact ⟨rfl, rfl, rfl⟩
  · obtain ⟨now, next, running, -⟩ := (s.closingLost l).reportBroken_frame l i
    rw [taken]
    exact ⟨now, next, running⟩
  · obtain ⟨now, next, running, -⟩ := (s.lockLost l).reportBroken_frame l i
    rw [taken]
    exact ⟨now, next, running⟩
  · rw [taken]
    exact ⟨rfl, rfl, rfl⟩

theorem State.takeIntervalExpiry_frame (s : State) : s.takeIntervalExpiry.now = s.now ∧
    s.takeIntervalExpiry.lock = s.lock ∧ s.takeIntervalExpiry.inReset = s.inReset := by
  cases due : s.intervalDue with
  | true =>
    rw [State.takeIntervalExpiry_of_due due]
    exact ⟨rfl, rfl, rfl⟩
  | false =>
    rw [State.takeIntervalExpiry_of_not_due due]
    exact ⟨rfl, rfl, rfl⟩

theorem State.ready_settle (running : s.inReset = false) : s.settle.ready = true :=
  State.ready_iff.2 ⟨(State.inReset_settle s).trans running, s.settled_settle⟩

/-- The state in which the free choice of the order of two expiries has been used. -/
def State.choiceUsed (s : State) : State := { s with freeCounter := s.freeCounter + 1 }

theorem State.takeDue_of_not_both (not_both : (s.lockDue && s.intervalDue) = false) :
    s.takeDue = s.takeLockExpiry.takeIntervalExpiry := by
  unfold State.takeDue
  rw [not_both]
  rfl

theorem State.takeDue_of_both (lock : s.lockDue = true) (interval : s.intervalDue = true) : s.takeDue =
    if Config.freeBit s.freeCounter then s.choiceUsed.takeLockExpiry.settle.takeIntervalExpiry
    else s.choiceUsed.takeIntervalExpiry.settle.takeLockExpiry := by
  unfold State.takeDue
  rw [lock, interval]
  rfl

theorem State.takeDue_frame (s : State) : s.takeDue.now = s.now ∧ s.takeDue.inReset = s.inReset := by
  have lock_first (t : State) : t.takeLockExpiry.takeIntervalExpiry.now = t.now ∧
      t.takeLockExpiry.takeIntervalExpiry.inReset = t.inReset := by
    obtain ⟨now, -, running⟩ := t.takeLockExpiry.takeIntervalExpiry_frame
    obtain ⟨now', -, running'⟩ := t.takeLockExpiry_frame
    exact ⟨now.trans now', running.trans running'⟩
  cases both : s.lockDue && s.intervalDue with
  | false =>
    rw [State.takeDue_of_not_both both]
    exact lock_first s
  | true =>
    rw [Bool.and_eq_true] at both
    rw [State.takeDue_of_both both.1 both.2]
    split
    · obtain ⟨now, -, running⟩ := s.choiceUsed.takeLockExpiry.settle.takeIntervalExpiry_frame
      obtain ⟨now', -, running'⟩ := s.choiceUsed.takeLockExpiry_frame
      exact ⟨now.trans ((State.now_settle _).trans now'), running.trans ((State.inReset_settle _).trans running')⟩
    · obtain ⟨now, -, running⟩ := s.choiceUsed.takeIntervalExpiry.settle.takeLockExpiry_frame
      obtain ⟨now', -, running'⟩ := s.choiceUsed.takeIntervalExpiry_frame
      exact ⟨now.trans ((State.now_settle _).trans now'), running.trans ((State.inReset_settle _).trans running')⟩

theorem exec_timebaseTick (ready : s.ready = true) :
    exec .timebaseTick s = .next (s.takeDue.settle.setNow (s.now + 1)) := by
  rw [exec_of_ready (f := State.tick) ready rfl rfl, State.tick, State.settle_setNow]

end

/-- Settles O15. -/
theorem timebaseTicks : Obligations.TimebaseTicks := by
  intro s t ready used
  obtain ⟨running, settled⟩ := State.ready_iff.1 ready
  have used_ready : s.choiceUsed.ready = true := ready
  refine ⟨?_, State.intervalDue_iff, ⟨_, exec_timebaseTick ready, rfl⟩, fun lock interval => ?none,
    fun lock interval taken => ?lock, fun lock interval taken => ?interval, fun lock interval => ?both⟩
  · simp [State.lockDue, Option.any_eq_true]
  case none =>
    rw [exec_timebaseTick ready, State.takeDue_of_not_both (by rw [lock]; rfl), State.takeLockExpiry_of_not_due lock,
      State.takeIntervalExpiry_of_not_due interval, State.settle_of_settled settled]
    rfl
  case lock =>
    have still_not_due : s.takeLockExpiry.intervalDue = false := by
      obtain ⟨now, next, -⟩ := s.takeLockExpiry_frame
      rw [State.intervalDue, now, next]
      exact interval
    rw [exec_lockTimerExpiry ready] at taken
    rw [exec_timebaseTick ready, State.takeDue_of_not_both (by simp [interval]),
      State.takeIntervalExpiry_of_not_due still_not_due, Host.Outcome.next.inj taken]
    rfl
  case interval =>
    rw [exec_intervalExpiry ready] at taken
    rw [exec_timebaseTick ready, State.takeDue_of_not_both (by rw [lock]; rfl), State.takeLockExpiry_of_not_due lock,
      Host.Outcome.next.inj taken]
    rfl
  case both =>
    have ticked := exec_timebaseTick ready
    rw [State.takeDue_of_both lock interval] at ticked
    cases bit : Config.freeBit s.freeCounter with
    | true =>
      rw [bit, if_pos rfl] at ticked
      refine .inl fun t u first second => ?_
      replace first := (exec_lockTimerExpiry used_ready).symm.trans first
      have between := State.ready_settle (s.choiceUsed.takeLockExpiry_frame.2.2.trans running)
      rw [← Host.Outcome.next.inj first, exec_intervalExpiry between] at second
      rw [ticked, Host.Outcome.next.inj second]
      rfl
    | false =>
      rw [bit, if_neg (by simp)] at ticked
      refine .inr fun t u first second => ?_
      replace first := (exec_intervalExpiry used_ready).symm.trans first
      have between := State.ready_settle (s.choiceUsed.takeIntervalExpiry_frame.2.2.trans running)
      rw [← Host.Outcome.next.inj first, exec_lockTimerExpiry between] at second
      rw [ticked, Host.Outcome.next.inj second]
      rfl

end Sys2Proof.Machine

/-! The moves that every event is made of: what each leaves of the state, with the conditions under which the model
makes it. The invariants of the machine are shown move by move, and each operation of the model is taken apart into
moves. -/

namespace Sys2Proof.Machine

/-! ### What a move leaves of a queue, of a Port Unit and of the windows -/

/-- A test of queue entries that an ADMITTED entry alone can fail, and that does not read the mark of R115. -/
structure Lenient (g : QEntry → Bool) : Prop where
  free : ∀ x : QEntry, x.isAdmitted = false → g x = true
  unmark : ∀ r a, g ⟨r, .admitted a⟩ = true → g ⟨r, .admitted { a with opensLock := false }⟩ = true

/-- The second queue holds no more entries, or at most four, and no entry newly ADMITTED. -/
structure QueueFollows (q q' : List QEntry) : Prop where
  length : q'.length ≤ q.length ∨ q'.length ≤ 4
  all : ∀ g, Lenient g → q.all g = true → q'.all g = true

/-- The cause of a port's hold stands (R6). -/
def State.stands (s : State) : Port → Hold → Bool
  | .p0 => s.supervisorHoldStands
  | .engine e => s.holdStands e

/-- What a move leaves of a Port Unit, no entry admitted: its queue follows, and its hold has its cause. -/
structure State.Follows (s : State) (p : Port) (u v : PortUnit) : Prop where
  queue : QueueFollows u.queue v.queue
  hold : u.hold.all (s.stands p) = true → v.hold.all (s.stands p) = true

/-- What a move leaves of the holds, no hold made: those that remain satisfy a test. -/
structure State.HoldsFollow (s : State) (ports : PerPort PortUnit) (remains : Port → Hold → Prop) : Prop where
  queue : ∀ p, (ports.get p).queue = s.queueOf p
  hold : ∀ p h, (ports.get p).hold = some h → s.holdOf p = some h ∧ remains p h

/-- What a move leaves of the windows: a rotation that fits, LOAD in progress only where it was or where LOAD_WINDOW
names the window, and a window that a request is held on still FETCHING. -/
structure State.WindowsFollow (s : State) (engines : PerEngine EngineUnit) (ports : PerPort PortUnit) : Prop where
  rotation : ∀ e w, (s.window e w).rotationFits = true → ((engines.get e).windows.get w).rotationFits = true
  loading : ∀ e w, ((engines.get e).windows.get w).isLoading = true →
    (s.window e w).isLoading = true ∨ s.command = some (.loadWindow e w)
  fetching : ∀ e w, (ports.get (.engine e)).hold = some (.window w) → (s.window e w).isFetching = true →
    ((engines.get e).windows.get w).isFetching = true

/-- No engine queue holds an ADMITTED entry. -/
def State.NoneAdmitted (s : State) : Prop := ∀ e, (s.queueOf (.engine e)).all (fun x => !x.isAdmitted) = true

/-! ### The moves -/

/-- What only some commands do. -/
inductive Tag where
  | starts | enables | advances | completes | unnoted

/-- One change that an operation makes and that leaves the operating state as it is, but for the completion of
STOP. -/
inductive Move (allow : Tag → Prop) (s : State) : State → Prop
  | aside (limit : BitVec 8) (fetches : List Fetch) (buffer : Eight (Option Posted)) (pointer : Port)
      (interval : Micros) (next : Option Micros) (changed irq : Bool) (now : Micros) (free : Nat) :
      Move allow s { s with
        p0LockLimit := limit, fetches := fetches, buffer := buffer, roundRobin := pointer, interval := interval,
        nextExpiry := next, statusChanged := changed, irqAsserted := irq, now := now, freeCounter := free }
  | causes (c : Causes) (halt : s.causes.halt = true → c.halt = true) : Move allow s { s with causes := c }
  | enables (v : Enables) (own : allow .enables) : Move allow s { s with enables := v }
  | reporting : Move allow s { s with reporting := true }
  | indices (p c : Nat) (own : p = s.producer ∨ allow .advances)
      (inside : s.indicesInRing = true → ({ s with producer := p, consumer := c } : State).indicesInRing = true) :
      Move allow s { s with producer := p, consumer := c }
  | ctl (v : List CtlRequest) (few : (v.filter CtlRequest.isStatus).length ≤ (s.ctl.filter CtlRequest.isStatus).length ∨
      (v.filter CtlRequest.isStatus).length ≤ 1) : Move allow s { s with ctl := v }
  | issued (v : List Issued) (few : v.length ≤ s.issued.length ∨ v.length ≤ 8) : Move allow s { s with issued := v }
  | staged (v : List Staged) (few : v.length ≤ s.staged.length ∨ v.length ≤ 4)
      (head : s.staged.tail.all (fun x => !x.writing) = true → v.tail.all (fun x => !x.writing) = true) :
      Move allow s { s with staged := v }
  | sequences (l : Option Lock) (q : PerPort Sequence)
      (agree : s.lockAgrees = true → ({ s with lock := l, seqs := q } : State).lockAgrees = true) :
      Move allow s { s with lock := l, seqs := q }
  | ports (v : PerPort PortUnit) (follow : ∀ p, s.Follows p (s.unit p) (v.get p)) : Move allow s { s with ports := v }
  | candidate (p : Port) (u : PortUnit) (length : u.queue.length ≤ (s.queueOf p).length) (hold : u.hold = s.holdOf p)
      (isolated : p ≠ .p0 → s.opState = .active ∧
        ((s.queueOf p).all s.entryIsolated = true → u.queue.all s.entryIsolated = true)) :
      Move allow s { s with ports := s.ports.set p u }
  | windows (engines : PerEngine EngineUnit) (ports : PerPort PortUnit) (follow : s.WindowsFollow engines ports)
      (holds : s.HoldsFollow ports fun _ _ => True) : Move allow s { s with engines := engines, ports := ports }
  | map (m : AttributeMap) (off : holeInvalid m.ranges s.zone = false) : Move allow s { s with map := m }
  | begun (k : Command) (idle : s.command = none) (reporting : s.reporting = true)
      (fits : ({ s with command := some k } : State).commandFits = true) : Move allow s { s with command := some k }
  | reading (j k : Command) (command : s.command = some j)
      (same : (∃ prior x y, j = .start prior x ∧ k = .start prior y) ∨ ∃ x y, j = .reloadMap x ∧ k = .reloadMap y) :
      Move allow s { s with command := some k }
  | ended (engines : PerEngine EngineUnit) (ports : PerPort PortUnit) (follow : s.WindowsFollow engines ports)
      (holds : s.HoldsFollow ports fun _ h => h.ofCommand = false)
      (calm : s.commandAgrees = true → s.opState ≠ .loading ∧ s.opState ≠ .stopping ∧
        ∀ e w, ((engines.get e).windows.get w).isLoading = false) :
      Move allow s { s with engines := engines, ports := ports, command := none }
  | stopCompleted (own : allow .completes) (engines : PerEngine EngineUnit) (stopping : s.opState = .stopping)
      (none_admitted : s.NoneAdmitted) (emptied : ∀ e, (engines.get e).windows = eightOf Window.reset) :
      Move allow s { s with engines := engines, ports := s.portsUnheld, opState := .boot, command := none }

/-- A change of the operating state other than the completion of STOP (R160). -/
inductive Turn (allow : Tag → Prop) (s : State) : State → Prop
  | startTaken (idle : s.command = none) (rests : s.opState = .boot ∨ s.opState = .halted)
      (reporting : s.reporting = true) :
      Turn allow s { s with
        command := some (.start s.opState none), opState := .loading, ports := s.portsUnheld }
  | stopTaken (idle : s.command = none) (active : s.opState = .active) (reporting : s.reporting = true) :
      Turn allow s { s with command := some .stop, opState := .stopping, ports := s.portsUnheld }
  | halted (none_admitted : s.NoneAdmitted) :
      Turn allow s { s with
        engines := s.enginesEmptied, ports := s.portsUnheld, opState := .halted, command := none }
  | started (own : allow .starts) (c : Configuration) (engines : PerEngine EngineUnit) (ports : PerPort PortUnit)
      (causes : Causes) (running : s.inReset = false)
      (starting : ∃ prior x, s.command = some (.start prior x)) (valid : c.detail s.anc = 0)
      (emptied : ∀ e, (engines.get e).windows = eightOf Window.reset)
      (holds : s.HoldsFollow ports fun _ h => s.opState = .active ∧ h.ofCommand = false ∧ h.onWindow = false) :
      Turn allow s { s with
        ring := some c.ring, table := some c.table, map := ⟨rangesOf c.rangeWords, defaultPostedOf c.global⟩,
        engines := engines, ports := ports, producer := 0, consumer := 0, causes := causes, opState := .active,
        command := none }
  | startFailed (prior : OpState) (ports : PerPort PortUnit) (starting : ∃ x, s.command = some (.start prior x))
      (holds : s.HoldsFollow ports fun _ h => s.opState = prior ∧ h.ofCommand = false) :
      Turn allow s { s with ports := ports, opState := prior, command := none }

/-- A status update is owed: one waits, or will be raised at the end of the event (R169). -/
def State.Owed (s : State) : Prop := s.statusChanged = true ∨ s.statusWaiting = true

/-- The reporting flag stays, and while it is set an update that is owed stays owed, and one is owed where what it shows
has changed (R169, R174). -/
structure State.Notes (s t : State) : Prop where
  reporting : t.reporting = s.reporting
  owed : s.reporting = true → s.Owed → t.Owed
  shown : s.reporting = true → (t.statusWord = s.statusWord ∧ t.producer = s.producer) ∨ t.Owed

/-- Moves one after the other. -/
def Moves (allow : Tag → Prop) : State → State → Prop :=
  Relation.ReflTransGen fun s t => Move allow s t ∧ (s.Notes t ∨ allow .unnoted)

/-- What is allowed but the completion of STOP. -/
def Tag.still (allow : Tag → Prop) : Tag → Prop
  | .completes => False
  | .starts => allow .starts
  | .enables => allow .enables
  | .advances => allow .advances
  | .unnoted => allow .unnoted

/-- What an event does: moves, at most one change of the operating state, and moves, among which STOP may complete. -/
def Acts (allow : Tag → Prop) (s t : State) : Prop :=
  ∃ a b, Moves (Tag.still allow) s a ∧ (b = a ∨ (Turn allow a b ∧ a.Notes b)) ∧ Moves allow b t

end Sys2Proof.Machine

/-! Every move and every turn keeps the invariants of the machine. -/

namespace Sys2Proof.Machine

section
variable {s t : State} {allow : Tag → Prop}

theorem State.queueOf_unheld (p : Port) : (s.portsUnheld.get p).queue = s.queueOf p := by
  rw [s.unit_portsUnheld p]
  rfl

theorem State.holdOf_unheld (p : Port) : (s.portsUnheld.get p).hold = none := by
  rw [s.unit_portsUnheld p]

/-! ### The capacities (R2, R106, R128, R169) -/

theorem State.withinCapacity_iff : s.withinCapacity = true ↔ (∀ p, (s.queueOf p).length ≤ 4) ∧ s.issued.length ≤ 8 ∧
    s.staged.length ≤ 4 ∧ (s.ctl.filter CtlRequest.isStatus).length ≤ 1 := by
  have ports : (allPorts.all fun p => decide ((s.queueOf p).length ≤ 4)) = true ↔ ∀ p, (s.queueOf p).length ≤ 4 := by
    refine ⟨fun all p => ?_, fun all => List.all_eq_true.2 fun p _ => decide_eq_true (all p)⟩
    exact of_decide_eq_true (List.all_eq_true.1 all p (by rcases p with _ | _ | _ | _ <;> decide))
  simp only [State.withinCapacity, Bool.and_eq_true, ports, decide_eq_true_eq, and_assoc]

theorem Move.withinCapacity (move : Move allow s t) (within : s.withinCapacity = true) : t.withinCapacity = true := by
  obtain ⟨queues, issued, staged, updates⟩ := State.withinCapacity_iff.1 within
  cases move with
  | ctl v few => exact State.withinCapacity_iff.2 ⟨queues, issued, staged, few.elim (·.trans updates) id⟩
  | issued v few => exact State.withinCapacity_iff.2 ⟨queues, few.elim (·.trans issued) id, staged, updates⟩
  | staged v few head => exact State.withinCapacity_iff.2 ⟨queues, issued, few.elim (·.trans staged) id, updates⟩
  | ports v follow =>
    exact State.withinCapacity_iff.2
      ⟨fun p => (follow p).queue.length.elim (·.trans (queues p)) id, issued, staged, updates⟩
  | candidate p u length hold isolated =>
    refine State.withinCapacity_iff.2 ⟨fun q => ?_, issued, staged, updates⟩
    by_cases same : q = p
    · subst same
      rw [State.queueOf, State.unit, PerPort.get_set_same]
      exact length.trans (queues q)
    · rw [State.queueOf, State.unit, PerPort.get_set_other _ _ _ _ same]
      exact queues q
  | windows engines ports follow holds | ended engines ports follow holds calm =>
    exact State.withinCapacity_iff.2 ⟨fun p => (congrArg List.length (holds.queue p)).trans_le (queues p), issued,
      staged, updates⟩
  | stopCompleted own engines stopping none_admitted emptied =>
    exact State.withinCapacity_iff.2 ⟨fun p => (congrArg List.length (s.queueOf_unheld p)).trans_le (queues p),
      issued, staged, updates⟩
  | _ => exact within

theorem Turn.withinCapacity (turn : Turn allow s t) (within : s.withinCapacity = true) : t.withinCapacity = true := by
  obtain ⟨queues, others⟩ := State.withinCapacity_iff.1 within
  cases turn with
  | started own c engines ports causes running starting valid emptied holds | startFailed prior ports starting holds =>
    exact State.withinCapacity_iff.2 ⟨fun p => (congrArg List.length (holds.queue p)).trans_le (queues p), others⟩
  | _ => exact State.withinCapacity_iff.2 ⟨fun p => (congrArg List.length (s.queueOf_unheld p)).trans_le (queues p),
      others⟩

/-! ### The ring and the staging FIFO (R128, R133) -/

theorem Move.indicesInRing (move : Move allow s t) (inside : s.indicesInRing = true) : t.indicesInRing = true := by
  cases move with
  | indices p c own kept => exact kept inside
  | _ => exact inside

theorem ringSizeOf_pos (code : BitVec 4) : 0 < ringSizeOf code := Nat.mul_pos (by decide) (Nat.two_pow_pos _)

theorem Turn.indicesInRing (turn : Turn allow s t) (inside : s.indicesInRing = true) : t.indicesInRing = true := by
  cases turn with
  | started own c engines ports causes running starting valid emptied holds =>
    exact (State.indicesInRing_iff rfl).2 ⟨ringSizeOf_pos _, ringSizeOf_pos _, ringSizeOf_pos _⟩
  | _ => exact inside

theorem Move.writesHeadOnly (move : Move allow s t) (head_only : s.writesHeadOnly = true) :
    t.writesHeadOnly = true := by
  cases move with
  | staged v few head => exact head head_only
  | _ => exact head_only

theorem Turn.writesHeadOnly (turn : Turn allow s t) (head_only : s.writesHeadOnly = true) :
    t.writesHeadOnly = true := by
  cases turn <;> exact head_only

/-! ### The lock (R110) -/

theorem Move.lockAgrees (move : Move allow s t) (agree : s.lockAgrees = true) : t.lockAgrees = true := by
  cases move with
  | sequences l q kept => exact kept agree
  | _ => exact agree

theorem Turn.lockAgrees (turn : Turn allow s t) (agree : s.lockAgrees = true) : t.lockAgrees = true := by
  cases turn <;> exact agree

/-! ### The rotations (R34) -/

theorem State.rotationsFit_iff : s.rotationsFit = true ↔ ∀ e w, (s.window e w).rotationFits = true := by
  have bank (b : Eight Window) : b.toList.all Window.rotationFits = true ↔ ∀ w, (b.get w).rotationFits = true := by
    simp [List.all_eq_true, Eight.mem_toList]
  rw [State.rotationsFit, PerEngine.toList]
  simp only [List.all_cons, List.all_nil, Bool.and_true, Bool.and_eq_true, bank]
  refine ⟨fun ⟨p1, p2, p3⟩ e w => ?_, fun all => ⟨all .p1, all .p2, all .p3⟩⟩
  cases e
  · exact p1 w
  · exact p2 w
  · exact p3 w

theorem get_eightOf {α : Type} (a : α) (i : Index8) : (eightOf a).get i = a := by
  match i with
  | 0 | 1 | 2 | 3 | 4 | 5 | 6 | 7 => rfl

theorem rotationsFit_of_emptied (emptied : ∀ e, (t.engines.get e).windows = eightOf Window.reset) :
    t.rotationsFit = true :=
  State.rotationsFit_iff.2 fun e w => by
    rw [State.window, State.eng, emptied e, get_eightOf]
    rfl

theorem State.windows_enginesEmptied (e : Engine) : (s.enginesEmptied.get e).windows = eightOf Window.reset := by
  rw [State.enginesEmptied, PerEngine.get_map]

theorem Move.rotationsFit (move : Move allow s t) (fit : s.rotationsFit = true) : t.rotationsFit = true := by
  cases move with
  | windows engines ports follow holds | ended engines ports follow holds calm =>
    exact State.rotationsFit_iff.2 fun e w => follow.rotation e w (State.rotationsFit_iff.1 fit e w)
  | stopCompleted own engines stopping none_admitted emptied => exact rotationsFit_of_emptied emptied
  | _ => exact fit

theorem Turn.rotationsFit (turn : Turn allow s t) (fit : s.rotationsFit = true) : t.rotationsFit = true := by
  cases turn with
  | halted none_admitted => exact rotationsFit_of_emptied fun e => s.windows_enginesEmptied e
  | started own c engines ports causes running starting valid emptied holds => exact rotationsFit_of_emptied emptied
  | _ => exact fit

/-! ### The holds (R6) -/

theorem State.holdsStand_iff : s.holdsStand = true ↔ ∀ p, (s.holdOf p).all (s.stands p) = true := by
  rw [State.holdsStand, allEngines]
  simp only [List.all_cons, List.all_nil, Bool.and_true, Bool.and_eq_true]
  refine ⟨fun ⟨p0, p1, p2, p3⟩ p => ?_, fun all => ⟨all .p0, all (.engine .p1), all (.engine .p2), all (.engine .p3)⟩⟩
  rcases p with _ | _ | _ | _
  · exact p0
  · exact p1
  · exact p2
  · exact p3

theorem holdsStand_of_unheld (unheld : ∀ p, t.holdOf p = none) : t.holdsStand = true :=
  State.holdsStand_iff.2 fun p => by
    rw [unheld p]
    rfl

/-- The holds that remain have their cause where each cause that stood stands. -/
theorem holdsStand_of_follow {remains : Port → Hold → Prop} (holds : s.HoldsFollow t.ports remains)
    (still : ∀ p h, t.holdOf p = some h → remains p h → s.stands p h = true → t.stands p h = true)
    (stand : s.holdsStand = true) : t.holdsStand = true := by
  refine State.holdsStand_iff.2 fun p => (Option.all_eq_true _ _).2 fun h held => ?_
  obtain ⟨held_before, remained⟩ := holds.hold p h held
  exact still p h held remained ((Option.all_eq_true _ _).1 (State.holdsStand_iff.1 stand p) h held_before)

/-- A hold that is none of a command's has its cause in a window FETCHING, in LOADING or in the buffer (R6). -/
theorem stands_of_not_command {p : Port} {h : Hold} (apart : h.ofCommand = false)
    (loading : h = .loading → s.opState = .loading → t.opState = .loading)
    (fetching : ∀ e w, p = .engine e → h = .window w → (s.window e w).isFetching = true →
      (t.window e w).isFetching = true) (stands : s.stands p h = true) : t.stands p h = true := by
  cases h with
  | loading =>
    cases p with
    | p0 => cases stands
    | engine e => exact decide_eq_true (loading rfl (of_decide_eq_true stands))
  | window w =>
    cases p with
    | p0 => cases stands
    | engine e => exact fetching e w rfl rfl stands
  | bufferSpace => cases p <;> rfl
  | reloadMap | configurePort | configureLapsed => cases apart

/-- With no command in progress no hold is one of a command (R6). -/
theorem not_command_of_idle {p : Port} {h : Hold} (idle : s.command = none) (stands : s.stands p h = true) :
    h.ofCommand = false := by
  have not_reloading : s.reloading = false := by rw [State.reloading, idle]
  have not_configuring (e : Engine) : s.configuring e = false := by rw [State.configuring, idle]; rfl
  cases h with
  | reloadMap => cases p <;> exact absurd (not_reloading.symm.trans stands) (by simp)
  | configurePort | configureLapsed =>
    cases p with
    | p0 => cases stands
    | engine e => exact absurd ((not_configuring e).symm.trans stands) (by simp)
  | loading | window w | bufferSpace => rfl

/-- The causes of the holds where the command in progress has received an answer. -/
theorem stands_of_reading {p : Port} {h : Hold} {j k : Command} (command : s.command = some j)
    (same : (∃ prior x y, j = .start prior x ∧ k = .start prior y) ∨ ∃ x y, j = .reloadMap x ∧ k = .reloadMap y)
    (stands : s.stands p h = true) : ({ s with command := some k } : State).stands p h = true := by
  have reloading : ({ s with command := some k } : State).reloading = s.reloading := by
    rw [State.reloading, State.reloading, command]
    rcases same with ⟨prior, x, y, rfl, rfl⟩ | ⟨x, y, rfl, rfl⟩ <;> rfl
  have configuring (e : Engine) : ({ s with command := some k } : State).configuring e = s.configuring e := by
    rw [State.configuring, State.configuring, command]
    rcases same with ⟨prior, x, y, rfl, rfl⟩ | ⟨x, y, rfl, rfl⟩ <;> rfl
  cases h with
  | reloadMap => cases p <;> exact reloading.trans stands
  | configurePort | configureLapsed =>
    cases p with
    | p0 => cases stands
    | engine e => exact (configuring e).trans stands
  | loading | window w | bufferSpace => cases p <;> exact stands

theorem State.holdsFollow_self (s : State) : s.HoldsFollow s.ports fun _ _ => True :=
  ⟨fun _ => rfl, fun _ _ held => ⟨held, trivial⟩⟩

theorem Move.holdsStand (move : Move allow s t) (stand : s.holdsStand = true) : t.holdsStand = true := by
  cases move with
  | ports v follow => exact State.holdsStand_iff.2 fun p => (follow p).hold (State.holdsStand_iff.1 stand p)
  | candidate p u length hold isolated =>
    refine State.holdsStand_iff.2 fun q => ?_
    have held : ({ s with ports := s.ports.set p u } : State).holdOf q = s.holdOf q := by
      by_cases same : q = p
      · subst same
        rw [State.holdOf, State.unit, PerPort.get_set_same, hold]
      · rw [State.holdOf, State.unit, PerPort.get_set_other _ _ _ _ same]
        rfl
    rw [held]
    exact State.holdsStand_iff.1 stand q
  | windows engines ports follow holds =>
    refine holdsStand_of_follow (t := { s with engines := engines, ports := ports }) holds
      (fun p h held _ stands => ?_) stand
    by_cases apart : h.ofCommand = true
    · cases h with
      | loading | window w | bufferSpace => cases apart
      | reloadMap | configurePort | configureLapsed => cases p <;> exact stands
    · refine stands_of_not_command (s := s) (by simpa using apart) (fun _ => id) (fun e w port hold => ?_) stands
      subst port hold
      exact follow.fetching e w held
  | begun k idle reporting fits =>
    refine holdsStand_of_follow (t := { s with command := some k }) s.holdsFollow_self (fun p h _ _ stands => ?_) stand
    exact stands_of_not_command (s := s) (not_command_of_idle idle stands) (fun _ => id) (fun _ _ _ _ => id) stands
  | reading j k command same =>
    exact holdsStand_of_follow (t := { s with command := some k }) s.holdsFollow_self
      (fun p h _ _ stands => stands_of_reading command same stands) stand
  | ended engines ports follow holds calm =>
    refine holdsStand_of_follow (t := { s with engines := engines, ports := ports, command := none }) holds
      (fun p h held apart stands => ?_) stand
    refine stands_of_not_command (s := s) apart (fun _ => id) (fun e w port hold => ?_) stands
    subst port hold
    exact follow.fetching e w held
  | stopCompleted own engines stopping none_admitted emptied => exact holdsStand_of_unheld s.holdOf_unheld
  | _ => exact stand

theorem Turn.holdsStand (turn : Turn allow s t) (stand : s.holdsStand = true) : t.holdsStand = true := by
  cases turn with
  | started own c engines ports causes running starting valid emptied holds =>
    refine holdsStand_of_follow (remains := _) (by exact holds) (fun p h _ remained stands => ?_) stand
    obtain ⟨active, apart, off_window⟩ := remained
    refine stands_of_not_command (s := s) apart (fun _ loading => ?_) (fun e w _ hold => ?_) stands
    · cases active.symm.trans loading
    · subst hold
      cases off_window
  | startFailed prior ports starting holds =>
    refine holdsStand_of_follow (remains := _) (by exact holds) (fun p h _ remained stands => ?_) stand
    obtain ⟨stays, apart⟩ := remained
    exact stands_of_not_command (s := s) apart (fun _ loading => stays.symm.trans loading) (fun _ _ _ _ => id) stands
  | _ => exact holdsStand_of_unheld s.holdOf_unheld

end

end Sys2Proof.Machine

/-! Every move and every turn keeps the command in progress in agreement with the operating state (R158 to R165), the
admitted engine requests out of the zone (R8, R80) and the HOLE ranges off it (R79). -/

namespace Sys2Proof.Machine

section
variable {s t : State} {allow : Tag → Prop}

/-! ### The command in progress -/

theorem State.loadsInProgress_iff : s.loadsInProgress = true ↔
    ∀ e w, (s.window e w).isLoading = true → s.command = some (.loadWindow e w) := by
  have each (e : Engine) : (allIndexes.all fun w =>
      !(s.window e w).isLoading || decide (s.command = some (.loadWindow e w))) = true ↔
      ∀ w, (s.window e w).isLoading = true → s.command = some (.loadWindow e w) := by
    rw [allIndexes_eq]
    simp only [List.all_eq_true, List.mem_finRange, true_imp_iff, Bool.or_eq_true, Bool.not_eq_true', decide_eq_true_eq]
    exact forall_congr' fun w => by cases (s.window e w).isLoading <;> simp
  rw [State.loadsInProgress, allEngines]
  simp only [List.all_cons, List.all_nil, Bool.and_true, Bool.and_eq_true, each]
  refine ⟨fun ⟨p1, p2, p3⟩ e w => ?_, fun all => ⟨all .p1, all .p2, all .p3⟩⟩
  cases e
  · exact p1 w
  · exact p2 w
  · exact p3 w

/-- With no command in progress, or one that is no LOAD_WINDOW, no window is being loaded (R39). -/
theorem not_loading_of_command (agrees : s.commandAgrees = true)
    (other : ∀ e w, s.command ≠ some (.loadWindow e w)) (e : Engine) (w : Index8) :
    (s.window e w).isLoading = false := by
  obtain ⟨-, loads, -⟩ := State.commandAgrees_iff.1 agrees
  exact Bool.eq_false_iff.2 fun loading => other e w (State.loadsInProgress_iff.1 loads e w loading)

theorem not_loading_of_emptied {e : Engine} {w : Index8} (emptied : (t.engines.get e).windows = eightOf Window.reset) :
    (t.window e w).isLoading = false := by
  rw [State.window, State.eng, emptied, get_eightOf]
  rfl

theorem commandFits_of_idle (idle : t.command = none) (not_loading : t.opState ≠ .loading)
    (not_stopping : t.opState ≠ .stopping) : t.commandFits = true := by
  rw [State.commandFits, idle]
  simp [not_loading, not_stopping]

theorem commandAgrees_of_idle (idle : t.command = none) (not_loading : t.opState ≠ .loading)
    (not_stopping : t.opState ≠ .stopping) (none_loading : ∀ e w, (t.window e w).isLoading = false) :
    t.commandAgrees = true := by
  refine State.commandAgrees_iff.2 ⟨commandFits_of_idle idle not_loading not_stopping,
    State.loadsInProgress_iff.2 fun e w loading => ?_, .inl idle⟩
  cases (none_loading e w).symm.trans loading

/-- A command begun with none in progress (R158). -/
theorem commandAgrees_of_begun (agrees : s.commandAgrees = true) (idle : s.command = none)
    (engines : t.engines = s.engines) (reporting : t.reporting = true)
    (fits : t.commandFits = true) : t.commandAgrees = true := by
  refine State.commandAgrees_iff.2 ⟨fits, State.loadsInProgress_iff.2 fun e w loading => ?_, .inr reporting⟩
  have still : t.window e w = s.window e w := by rw [State.window, State.eng, engines]; rfl
  rw [still, not_loading_of_command agrees (by simp [idle])] at loading
  cases loading

theorem Move.commandAgrees (move : Move allow s t) (agrees : s.commandAgrees = true) : t.commandAgrees = true := by
  obtain ⟨fits, loads, reports⟩ := State.commandAgrees_iff.1 agrees
  cases move with
  | reporting => exact State.commandAgrees_iff.2 ⟨fits, loads, .inr rfl⟩
  | windows engines ports follow holds =>
    refine State.commandAgrees_iff.2 ⟨fits, State.loadsInProgress_iff.2 fun e w loading => ?_, reports⟩
    exact (follow.loading e w loading).elim (State.loadsInProgress_iff.1 loads e w) id
  | begun k idle reporting fits => exact commandAgrees_of_begun agrees idle rfl reporting fits
  | reading j k command same =>
    have other (e : Engine) (w : Index8) : s.command ≠ some (.loadWindow e w) := by
      rw [command]
      rcases same with ⟨prior, x, y, rfl, rfl⟩ | ⟨x, y, rfl, rfl⟩ <;> simp
    refine State.commandAgrees_iff.2 ⟨?_, State.loadsInProgress_iff.2 fun e w loading => ?_, .inr ?_⟩
    · rw [State.commandFits, command] at fits
      rcases same with ⟨prior, x, y, rfl, rfl⟩ | ⟨x, y, rfl, rfl⟩ <;> exact fits
    · cases (not_loading_of_command agrees other e w).symm.trans loading
    · exact State.reporting_of_busy (s := s) agrees command
  | ended engines ports follow holds calm =>
    obtain ⟨not_loading, not_stopping, unloaded⟩ := calm agrees
    exact commandAgrees_of_idle rfl not_loading not_stopping unloaded
  | stopCompleted own engines stopping none_admitted emptied =>
    exact commandAgrees_of_idle rfl (by simp) (by simp) fun e w => not_loading_of_emptied (emptied e)
  | _ => exact agrees

theorem Turn.commandAgrees (turn : Turn allow s t) (agrees : s.commandAgrees = true) : t.commandAgrees = true := by
  cases turn with
  | startTaken idle rests reporting =>
    refine commandAgrees_of_begun agrees idle rfl reporting ?_
    simp only [State.commandFits]
    simpa using rests
  | stopTaken idle active reporting => exact commandAgrees_of_begun agrees idle rfl reporting rfl
  | halted none_admitted =>
    exact commandAgrees_of_idle rfl (by simp) (by simp) fun e w => not_loading_of_emptied (s.windows_enginesEmptied e)
  | started own c engines ports causes running starting valid emptied holds =>
    exact commandAgrees_of_idle rfl (by simp) (by simp) fun e w => not_loading_of_emptied (emptied e)
  | startFailed prior ports starting holds =>
    obtain ⟨x, command⟩ := starting
    obtain ⟨-, rests⟩ := State.starting agrees command
    refine commandAgrees_of_idle rfl ?_ ?_ fun e w => not_loading_of_command agrees (by simp [command]) e w
    · rcases rests with rfl | rfl <;> simp
    · rcases rests with rfl | rfl <;> simp

/-! ### The isolation of the zone -/

/-- Every engine queue satisfies a test. -/
def State.AllEngines (s : State) (g : QEntry → Bool) : Prop := ∀ e, (s.queueOf (.engine e)).all g = true

theorem State.engines_all_iff (f : PortUnit → Bool) :
    s.ports.engines.toList.all f = true ↔ ∀ e, f (s.unit (.engine e)) = true := by
  rw [PerEngine.toList]
  simp only [List.all_cons, List.all_nil, Bool.and_true, Bool.and_eq_true]
  refine ⟨fun ⟨p1, p2, p3⟩ e => ?_, fun all => ⟨all .p1, all .p2, all .p3⟩⟩
  cases e
  · exact p1
  · exact p2
  · exact p3

theorem State.isolated_iff : s.isolated = true ↔ s.commandAgrees = true ∧
    (∀ e, (s.queueOf (.engine e)).all s.entryIsolated = true) ∧ (s.opState.records = true ∨ s.NoneAdmitted) ∧
    (s.inReset = true → s.table = none) := by
  have none_admitted : (s.ports.engines.toList.all fun u => u.queue.all fun x => !x.isAdmitted) = true ↔
      s.NoneAdmitted := s.engines_all_iff _
  have each : (s.ports.engines.toList.all fun u => u.queue.all s.entryIsolated) = true ↔
      ∀ e, (s.queueOf (.engine e)).all s.entryIsolated = true := s.engines_all_iff _
  have held : (!s.inReset || s.table.isNone) = true ↔ (s.inReset = true → s.table = none) := by
    cases s.inReset <;> simp
  simp only [State.isolated, Bool.and_eq_true, each, Bool.or_eq_true, none_admitted, and_assoc]
  rw [← held, Bool.or_eq_true]

theorem lenient_entryIsolated (s : State) : Lenient s.entryIsolated := by
  refine ⟨fun x other => ?_, fun r a isolated => isolated⟩
  obtain ⟨r, phase⟩ := x
  cases phase with
  | admitted a => cases other
  | waiting | issued | decided => rfl

theorem lenient_not_admitted : Lenient fun x => !x.isAdmitted :=
  ⟨fun x other => by rw [other]; rfl, fun r a admitted => admitted⟩

theorem entryIsolated_congr (table : t.table = s.table) (ring : t.ring = s.ring) (anc : t.anc = s.anc) :
    t.entryIsolated = s.entryIsolated := by
  have zone : t.zone = s.zone := by rw [State.zone, State.zone, table, ring, anc]
  have inZone : t.inZone = s.inZone := funext fun a => by rw [State.inZone, zone]; rfl
  have reaches : t.reachesZone = s.reachesZone := funext fun p => by rw [State.reachesZone, inZone]; rfl
  funext x
  simp only [State.entryIsolated, reaches]

/-- Entries of which none is ADMITTED reach no zone. -/
theorem entryIsolated_of_none_admitted (none_admitted : t.NoneAdmitted) (e : Engine) :
    (t.queueOf (.engine e)).all t.entryIsolated = true := by
  refine List.all_eq_true.2 fun x member => (lenient_entryIsolated t).free x ?_
  simpa using List.all_eq_true.1 (none_admitted e) x member

/-- A state with the same queues on the engine ports, the same zone and an operating state that records. -/
theorem isolated_of_queues (isolated : s.isolated = true) (agrees : t.commandAgrees = true)
    (queues : ∀ e, t.queueOf (.engine e) = s.queueOf (.engine e)) (table : t.table = s.table) (ring : t.ring = s.ring)
    (anc : t.anc = s.anc) (inReset : t.inReset = s.inReset)
    (records : t.opState.records = true ∨ t.opState = s.opState ∨ s.NoneAdmitted) : t.isolated = true := by
  obtain ⟨-, entries, none_admitted, held⟩ := State.isolated_iff.1 isolated
  have kept (none_admitted : s.NoneAdmitted) : t.NoneAdmitted := fun e => (queues e).symm ▸ none_admitted e
  refine State.isolated_iff.2 ⟨agrees, fun e => ?_, ?_, ?_⟩
  · rw [queues, entryIsolated_congr table ring anc]
    exact entries e
  · rcases records with records | same | none_now
    · exact .inl records
    · rw [same]
      exact none_admitted.imp_right kept
    · exact .inr (kept none_now)
  · rw [inReset, table]
    exact held

theorem Move.isolated (move : Move allow s t) (isolated : s.isolated = true) : t.isolated = true := by
  obtain ⟨agrees, entries, none_admitted, held⟩ := State.isolated_iff.1 isolated
  have still := move.commandAgrees agrees
  cases move with
  | ports v follow =>
    refine State.isolated_iff.2 ⟨still, fun e => ?_, none_admitted.imp_right fun none_admitted e => ?_, held⟩
    · exact (follow (.engine e)).queue.all _ (lenient_entryIsolated s) (entries e)
    · exact (follow (.engine e)).queue.all _ lenient_not_admitted (none_admitted e)
  | candidate p u length hold clear =>
    refine State.isolated_iff.2 ⟨still, fun e => ?_, ?_, held⟩
    · by_cases same : Port.engine e = p
      · subst same
        rw [State.queueOf, State.unit, PerPort.get_set_same]
        exact (clear (by simp)).2 (entries e)
      · rw [State.queueOf, State.unit, PerPort.get_set_other _ _ _ _ same]
        exact entries e
    · by_cases supervisor : p = .p0
      · subst supervisor
        exact none_admitted
      · refine .inl ?_
        have active : s.opState = .active := (clear supervisor).1
        simp only [active]
        rfl
  | windows engines ports follow holds | ended engines ports follow holds calm =>
    exact isolated_of_queues isolated still (fun e => holds.queue _) rfl rfl rfl rfl (.inr (.inl rfl))
  | stopCompleted own engines stopping none_now emptied =>
    exact isolated_of_queues isolated still (fun e => s.queueOf_unheld _) rfl rfl rfl rfl (.inr (.inr none_now))
  | _ => exact isolated_of_queues isolated still (fun _ => rfl) rfl rfl rfl rfl (.inr (.inl rfl))

theorem Turn.isolated (turn : Turn allow s t) (isolated : s.isolated = true) : t.isolated = true := by
  obtain ⟨agrees, entries, none_admitted, held⟩ := State.isolated_iff.1 isolated
  have still := turn.commandAgrees agrees
  have none_of (resting : s.opState.records = false) : s.NoneAdmitted := none_admitted.resolve_left (by simp [resting])
  cases turn with
  | startTaken idle rests reporting =>
    refine isolated_of_queues isolated still (fun e => s.queueOf_unheld _) rfl rfl rfl rfl (.inr (.inr (none_of ?_)))
    rcases rests with op | op <;> rw [op] <;> rfl
  | stopTaken idle active reporting =>
    exact isolated_of_queues isolated still (fun e => s.queueOf_unheld _) rfl rfl rfl rfl (.inl rfl)
  | halted none_now =>
    exact isolated_of_queues isolated still (fun e => s.queueOf_unheld _) rfl rfl rfl rfl (.inr (.inr none_now))
  | started own c engines ports causes running starting valid emptied holds =>
    obtain ⟨prior, x, command⟩ := starting
    have resting : s.opState.records = false := by rw [(State.starting agrees command).1]; rfl
    refine State.isolated_iff.2 ⟨still, entryIsolated_of_none_admitted fun e => ?_, .inl rfl, fun reset => ?_⟩
    · rw [State.queueOf, State.unit, holds.queue]
      exact none_of resting e
    · cases running.symm.trans reset
  | startFailed prior ports starting holds =>
    obtain ⟨x, command⟩ := starting
    have resting : s.opState.records = false := by rw [(State.starting agrees command).1]; rfl
    exact isolated_of_queues isolated still (fun e => holds.queue _) rfl rfl rfl rfl (.inr (.inr (none_of resting)))

/-! ### The HOLE ranges -/

theorem State.zoneOpen_iff : s.zoneOpen = true ↔
    holeInvalid s.map.ranges s.zone = false ∧ (s.inReset = true → s.table = none) := by
  cases reset : s.inReset <;> simp [State.zoneOpen, reset]

theorem Move.zoneOpen (move : Move allow s t) (zone_open : s.zoneOpen = true) : t.zoneOpen = true := by
  cases move with
  | map m off => exact State.zoneOpen_iff.2 ⟨off, (State.zoneOpen_iff.1 zone_open).2⟩
  | _ => exact zone_open

/-- A configuration that START accepts holds no HOLE range on a page of its own zone (check 8 of R162). -/
theorem Configuration.off_zone {c : Configuration} {anc : BitVec 12} (valid : c.detail anc = 0) :
    holeInvalid (rangesOf c.rangeWords) (c.zone anc) = false := by
  by_contra hole
  rw [Bool.not_eq_false] at hole
  simp only [Configuration.detail, hole, if_true] at valid
  split_ifs at valid

theorem Turn.zoneOpen (turn : Turn allow s t) (zone_open : s.zoneOpen = true) : t.zoneOpen = true := by
  cases turn with
  | started own c engines ports causes running starting valid emptied holds =>
    exact State.zoneOpen_iff.2 ⟨Configuration.off_zone valid, fun reset => by cases running.symm.trans reset⟩
  | _ => exact zone_open

end

end Sys2Proof.Machine

/-! The operations that the events share, taken apart into moves: flags, queues, holds, the controller-originated queue
and fault reports. -/

namespace Sys2Proof.Machine

section
variable {s t u : State} {allow : Tag → Prop}

/-! ### What a move leaves of the status update -/

theorem State.notes_of_owed (reporting : t.reporting = s.reporting) (owed : t.Owed) : s.Notes t :=
  ⟨reporting, fun _ _ => owed, fun _ => .inr owed⟩

/-- What the status update shows is as it was. -/
structure State.ShowsAs (s t : State) : Prop where
  op : t.opState = s.opState
  busy : t.command.isSome = s.command.isSome
  causes : t.causes = s.causes
  producer : t.producer = s.producer
  consumer : t.consumer = s.consumer
  states : ∀ e, (t.eng e).state = (s.eng e).state

theorem State.ShowsAs.word (same : s.ShowsAs t) : t.statusWord = s.statusWord ∧ t.producer = s.producer := by
  obtain ⟨op, busy, causes, producer, consumer, states⟩ := same
  refine ⟨(State.statusWord_eq_iff s t).2 ⟨op, busy, ?_, causes, states⟩, producer⟩
  rw [State.queueCause, State.queueCause, producer, consumer]

theorem State.notes_of_same (reporting : t.reporting = s.reporting) (owed : s.Owed → t.Owed) (same : s.ShowsAs t) :
    s.Notes t := ⟨reporting, fun _ => owed, fun _ => .inl same.word⟩

/-- What the status update shows changes only where one is owed. -/
theorem State.notes_of_noted {b : Prop} [Decidable b] (reporting : t.reporting = s.reporting) (owed : s.Owed → t.Owed)
    (noted : b → t.Owed) (same : ¬ b → s.ShowsAs t) : s.Notes t := by
  by_cases changed : b
  · exact State.notes_of_owed reporting (noted changed)
  · exact State.notes_of_same reporting owed (same changed)

theorem State.Notes.refl (s : State) : s.Notes s :=
  State.notes_of_same rfl id ⟨rfl, rfl, rfl, rfl, rfl, fun _ => rfl⟩

theorem State.Notes.trans (first : s.Notes t) (second : t.Notes u) : s.Notes u := by
  obtain ⟨reporting, owed, shown⟩ := first
  obtain ⟨reporting', owed', shown'⟩ := second
  have on (here : s.reporting = true) : t.reporting = true := reporting.trans here
  refine ⟨reporting'.trans reporting, fun here => owed' (on here) ∘ owed here, fun here => ?_⟩
  rcases shown here with ⟨word, producer⟩ | now_owed
  · rw [← word, ← producer]
    exact shown' (on here)
  · exact .inr (owed' (on here) now_owed)

/-! ### Moves one after the other -/

theorem Moves.refl : Moves allow s s := Relation.ReflTransGen.refl

theorem Move.once (move : Move allow s t) (notes : s.Notes t) : Moves allow s t :=
  Relation.ReflTransGen.single ⟨move, .inl notes⟩

/-- A move that touches nothing of the status update. -/
theorem Move.quiet (move : Move allow s t)
    (kept : t.opState = s.opState ∧ t.command = s.command ∧ t.causes = s.causes ∧ t.producer = s.producer ∧
      t.consumer = s.consumer ∧ t.engines = s.engines ∧ t.reporting = s.reporting ∧
      t.statusChanged = s.statusChanged ∧ t.ctl = s.ctl := by exact ⟨rfl, rfl, rfl, rfl, rfl, rfl, rfl, rfl, rfl⟩) :
    Moves allow s t := by
  obtain ⟨op, command, causes, producer, consumer, engines, reporting, changed, ctl⟩ := kept
  refine move.once (State.notes_of_same reporting (fun owed => ?_)
    ⟨op, by rw [command], causes, producer, consumer, fun e => by rw [State.eng, State.eng, engines]⟩)
  rw [State.Owed, State.statusWaiting, changed, ctl]
  exact owed

theorem Moves.trans (first : Moves allow s t) (second : Moves allow t u) : Moves allow s u :=
  Relation.ReflTransGen.trans first second

/-- A move after others, in a state in which an update is owed. -/
theorem Moves.owing (first : Moves allow s t) (second : Move allow t u) (reporting : u.reporting = t.reporting)
    (owed : u.Owed) : Moves allow s u := first.trans (second.once (State.notes_of_owed reporting owed))

/-- The note of a change alone. -/
theorem Moves.noted (b : Bool) (kept : s.statusChanged = true → b = true) :
    Moves allow s { s with statusChanged := b } :=
  Move.once (.aside _ _ _ _ _ _ _ _ _ _)
    (State.notes_of_same rfl (Or.imp_left kept) ⟨rfl, rfl, rfl, rfl, rfl, fun _ => rfl⟩)

/-! ### Queues -/

theorem all_updateFirst {α : Type} {g p : α → Bool} {f : α → α}
    (kept : ∀ x, p x = true → g x = true → g (f x) = true) {q : List α} (all : q.all g = true) :
    (updateFirst p f q).all g = true := by
  induction q with
  | nil => exact all
  | cons x q ih =>
    rw [List.all_cons, Bool.and_eq_true] at all
    obtain ⟨here, rest⟩ := all
    unfold updateFirst
    split
    · rename_i found
      rw [List.all_cons, kept x found here, rest]
      rfl
    · rw [List.all_cons, here, ih rest]
      rfl

theorem QueueFollows.refl (q : List QEntry) : QueueFollows q q := ⟨.inl le_rfl, fun _ _ all => all⟩

/-- An entry that is not ADMITTED in the place of another. -/
theorem QueueFollows.updateFirst {p : QEntry → Bool} {f : QEntry → QEntry}
    (kept : ∀ g, Lenient g → ∀ x, p x = true → g x = true → g (f x) = true) (q : List QEntry) :
    QueueFollows q (updateFirst p f q) :=
  ⟨.inl (length_updateFirst p f q).le, fun g lenient => all_updateFirst (kept g lenient)⟩

theorem QueueFollows.updateFirst_free {p : QEntry → Bool} {f : QEntry → QEntry}
    (free : ∀ x, (f x).isAdmitted = false) (q : List QEntry) : QueueFollows q (Machine.updateFirst p f q) :=
  QueueFollows.updateFirst (fun _ lenient x _ _ => lenient.free _ (free x)) q

/-- Entries refused. -/
theorem QueueFollows.refused (f : QEntry → Bool) (r : Response) (q : List QEntry) :
    QueueFollows q (q.map fun x => if f x then x.decide r else x) := by
  refine ⟨.inl (List.length_map _).le, fun g lenient all => ?_⟩
  rw [List.all_map, List.all_eq_true]
  intro x member
  rw [Function.comp_apply]
  split
  · exact lenient.free _ (QEntry.isAdmitted_decide x r)
  · exact List.all_eq_true.1 all x member

theorem length_splitDecided (q : List QEntry) : (splitDecided q).2.length ≤ q.length := by
  induction q with
  | nil => exact le_rfl
  | cons e q ih =>
    obtain ⟨req, phase⟩ := e
    cases phase with
    | decided r => exact ih.trans (Nat.le_succ _)
    | waiting | admitted | issued => exact le_rfl

/-- The responses given and the request on the link accepted (R4, R2). -/
theorem QueueFollows.answered (u : PortUnit) : QueueFollows u.queue u.answer.queue := by
  refine ⟨?_, fun g lenient all => ?_⟩
  · have given : u.responded.queue.length ≤ u.queue.length := length_splitDecided u.queue
    cases link : u.link with
    | none => exact .inl (by rw [PortUnit.answer_of_no_link link]; exact given)
    | some r =>
      rcases Nat.lt_or_ge u.responded.queue.length Config.queueDepth with room | full
      · refine .inr ?_
        rw [PortUnit.answer_of_room link room, List.length_append]
        exact room
      · exact .inl (by rw [PortUnit.answer_of_full full]; exact given)
  · rw [PortUnit.queue_answer_all g]
    · exact all
    · exact fun e r phase => lenient.free e (by rw [QEntry.isAdmitted, phase])
    · exact fun e phase => lenient.free e (by rw [QEntry.isAdmitted, phase])

/-! ### Port Units -/

theorem State.follows_refl (s : State) (p : Port) (u : PortUnit) : s.Follows p u u := ⟨.refl _, id⟩

/-- A queue that follows, the hold as it is. -/
theorem State.follows_queue {p : Port} {u : PortUnit} {q : List QEntry} (queue : QueueFollows u.queue q) :
    s.Follows p u { u with queue := q } := ⟨queue, id⟩

/-- A queue that follows, the hold ended. -/
theorem State.follows_unheld {p : Port} {u : PortUnit} {q : List QEntry} (queue : QueueFollows u.queue q) :
    s.Follows p u { u with queue := q, hold := none } := ⟨queue, fun _ => rfl⟩

theorem Moves.setUnit {p : Port} {v : PortUnit} (follow : s.Follows p (s.unit p) v) :
    Moves allow s (s.setUnit p v) := by
  refine Move.quiet (.ports _ fun q => ?_)
  by_cases same : q = p
  · subst same
    rw [PerPort.get_set_same]
    exact follow
  · rw [PerPort.get_set_other _ _ _ _ same]
    exact s.follows_refl q _

theorem Moves.setQueue {p : Port} {q : List QEntry} (queue : QueueFollows (s.queueOf p) q) :
    Moves allow s (s.setQueue p q) := Moves.setUnit (State.follows_queue queue)

theorem Moves.mapPorts {f : PortUnit → PortUnit} (follow : ∀ p, s.Follows p (s.unit p) (f (s.unit p))) :
    Moves allow s (s.setPorts (s.ports.map f)) :=
  Move.quiet (.ports _ fun p => by rw [PerPort.get_map]; exact follow p)

theorem Moves.unhold (p : Port) : Moves allow s (s.setHold p none) := Moves.setUnit (State.follows_unheld (.refl _))

/-- A hold made where its cause stands (R6). -/
theorem Moves.hold {p : Port} {h : Hold} (stands : s.stands p h = true) : Moves allow s (s.setHold p (some h)) :=
  Moves.setUnit ⟨.refl _, fun _ => stands⟩

theorem Moves.endHolds (f : Hold → Bool) : Moves allow s (s.endHolds f) := by
  refine Moves.mapPorts fun p => ?_
  split
  · exact State.follows_unheld (.refl _)
  · exact s.follows_refl p _

theorem Moves.decideWaiting (p : Port) (r : Response) : Moves allow s (s.decideWaiting p r) :=
  Moves.setUnit (State.follows_unheld (.updateFirst_free (fun _ => rfl) _))

theorem Moves.refuseEntries (e : Engine) (f : QEntry → Bool) (c : RefusalCode) :
    Moves allow s (s.refuseEntries e f c) :=
  Moves.setQueue (.refused f _ _)

theorem Moves.refuseEngineEntries (f : QEntry → Bool) (c : RefusalCode) :
    Moves allow s (s.refuseEngineEntries f c) :=
  ((Moves.refuseEntries .p1 f c).trans (Moves.refuseEntries .p2 f c)).trans (Moves.refuseEntries .p3 f c)

theorem Moves.answerLinks : Moves allow s s.answerLinks :=
  Moves.mapPorts fun p => ⟨.answered _, by rw [PortUnit.hold_answer]; exact id⟩

theorem Moves.refuseClosing (p : Port) : Moves allow s (s.refuseClosing p) :=
  Moves.setQueue (.updateFirst_free (fun _ => rfl) _)

theorem Moves.advanceIssued (p : Port) (n : Nat) {ph : Phase} (free : ∀ r, (QEntry.mk r ph).isAdmitted = false) :
    Moves allow s (s.advanceIssued p n ph) := Moves.setQueue (.updateFirst_free (fun x => free x.req) _)

theorem Moves.advanceAdmitted (p : Port) (n : Nat) {ph : Phase} (free : ∀ r, (QEntry.mk r ph).isAdmitted = false) :
    Moves allow s (s.advanceAdmitted p n ph) := Moves.setQueue (.updateFirst_free (fun x => free x.req) _)

theorem Moves.unmarkLockRead (p : Port) : Moves allow s (s.unmarkLockRead p) := by
  refine Moves.setQueue (.updateFirst (fun g lenient x _ passes => ?_) _)
  obtain ⟨r, phase⟩ := x
  cases phase with
  | admitted a => exact lenient.unmark r a passes
  | waiting | issued | decided => exact passes

/-! ### Flags -/

theorem Moves.changeCauses {c : Causes} (halt : s.causes.halt = true → c.halt = true) :
    Moves allow s (s.changeCauses c) := by
  rw [State.changeCauses_eq]
  refine (Moves.noted (s.statusChanged || decide (c ≠ s.causes)) (by simp +contextual)).trans
    (Move.once (.causes c halt) (State.notes_of_noted (b := c ≠ s.causes) rfl id (fun changed => ?_) fun same => ?_))
  · exact .inl (by simp [changed])
  · exact ⟨rfl, rfl, not_not.1 same, rfl, rfl, fun _ => rfl⟩

theorem Moves.setOverflow : Moves allow s s.setOverflow := Moves.changeCauses id
theorem Moves.setDone : Moves allow s s.setDone := Moves.changeCauses id
theorem Moves.setOverrun : Moves allow s s.setOverrun := Moves.changeCauses id
theorem Moves.setMisuse : Moves allow s s.setMisuse := Moves.changeCauses id
theorem Moves.setHalt : Moves allow s s.setHalt := Moves.changeCauses fun _ => rfl

/-- The storm counters and the settings of the engine ports, and where an update is owed their states, their windows
as they are. -/
theorem Moves.engines {v : PerEngine EngineUnit} (windows : ∀ e, (v.get e).windows = (s.eng e).windows)
    (states : s.Owed ∨ ∀ e, (v.get e).state = (s.eng e).state) :
    Moves allow s (s.setEngines v) := by
  have same (e : Engine) (w : Index8) : (v.get e).windows.get w = s.window e w := by rw [windows]; rfl
  refine Move.once (.windows v s.ports
    ⟨fun e w fits => by rw [same]; exact fits, fun e w loading => .inl (same e w ▸ loading),
      fun e w _ fetching => by rw [same]; exact fetching⟩ s.holdsFollow_self) ?_
  rcases states with owed | states
  · exact State.notes_of_owed rfl owed
  · exact State.notes_of_same rfl id ⟨rfl, rfl, rfl, rfl, rfl, states⟩

theorem Moves.setEng {e : Engine} {v : EngineUnit} (windows : v.windows = (s.eng e).windows)
    (state : s.Owed ∨ v.state = (s.eng e).state) : Moves allow s (s.setEng e v) := by
  have get (f : Engine) : (s.engines.set e v).get f = if f = e then v else s.eng f := by
    split
    · rename_i same
      rw [same, PerEngine.get_set_same]
    · rename_i other
      exact PerEngine.get_set_other _ _ _ _ other
  refine Moves.engines (fun f => ?_) (state.imp_right fun state f => ?_)
  · rw [get]
    split
    · rename_i same
      rw [windows, same]
    · rfl
  · rw [get]
    split
    · rename_i same
      rw [state, same]
    · rfl

theorem Moves.setStorm (e : Engine) (c : BitVec 8) : Moves allow s (s.setStorm e c) := Moves.setEng rfl (.inr rfl)

theorem Moves.countStorm (e : Engine) : Moves allow s (s.countStorm e) := Moves.setStorm e _

/-- The hold that a change of the port state leaves has its cause (R144, R148). -/
theorem State.stands_afterPortChange (e : Engine) (stands : (s.holdOf (.engine e)).all (s.stands (.engine e)) = true) :
    (s.unit (.engine e)).afterPortChange.hold.all (s.stands (.engine e)) = true := by
  rw [PortUnit.afterPortChange]
  dsimp only
  split
  · rename_i held
    have configuring : s.configuring e = true := by
      rcases held with held | held
      · exact (Option.all_eq_true _ _).1 stands _ held
      · exact (Option.all_eq_true _ _).1 stands _ held
    exact configuring
  · rfl

theorem Moves.afterPortChange (e : Engine) :
    Moves allow s (s.setUnit (.engine e) (s.unit (.engine e)).afterPortChange) :=
  Moves.setUnit ⟨.refl _, s.stands_afterPortChange e⟩

theorem Moves.changePortState (e : Engine) (st : PortState) : Moves allow s (s.changePortState e st) := by
  rw [State.changePortState_eq]
  refine (Moves.noted (s.statusChanged || decide ((s.eng e).state ≠ st)) (by simp +contextual)).trans ?_
  obtain ⟨t, noted⟩ : ∃ t, t = { s with statusChanged := s.statusChanged || decide ((s.eng e).state ≠ st) } := ⟨_, rfl⟩
  have state : t.Owed ∨ st = (t.eng e).state := by
    rw [noted]
    by_cases same : (s.eng e).state = st
    · exact .inr same.symm
    · exact .inl (.inl (by simp [same]))
  have changed : Moves allow t (t.setEng e { t.eng e with state := st }) := Moves.setEng rfl state
  by_cases same : (s.eng e).state = st
  · rw [if_pos same, ← noted]
    subst noted
    exact changed
  · rw [if_neg same, ← noted]
    have unheld := changed.trans (Moves.afterPortChange e)
    subst noted
    exact unheld

/-! ### The controller-originated queue -/

/-- A queue with requests raised behind those that stood: an update that is owed stays owed. -/
theorem State.notes_raised (l : List CtlRequest) : s.Notes { s with ctl := s.ctl ++ l } :=
  State.notes_of_same rfl (Or.imp_right fun waits => by
    rw [State.statusWaiting, List.any_append, Bool.or_eq_true]
    exact .inl waits) ⟨rfl, rfl, rfl, rfl, rfl, fun _ => rfl⟩

/-- A request that is no status update raised (R107). -/
theorem Moves.raiseCtl {k : CtlKind} (other : k ≠ .statusUpdate) (a : Word) (n : Nat) (d : List Beat) :
    Moves allow s (s.raiseCtl k a n d) := by
  refine Move.once (.ctl _ (.inl ?_)) (State.notes_raised _)
  rw [List.filter_append, List.filter_cons_of_neg (by simp [CtlRequest.isStatus, other]), List.filter_nil,
    List.append_nil]

theorem filter_isStatus_ctlUnwaiting (s : State) : s.ctlUnwaiting.filter CtlRequest.isStatus = [] := by
  simp [State.ctlUnwaiting, List.filter_filter]

/-- A result raised, a waiting status update withdrawn: one is owed then (R169). -/
theorem Moves.resulted (code : BitVec 8) (o : CommandOutcome) (n : Nat)
    (owes : s.statusWaiting = true → s.statusChanged = true) :
    Moves allow s { s with ctl := s.ctlUnwaiting ++ [s.resultRequest code o n] } := by
  refine Move.once (.ctl _ (.inr ?_)) (State.notes_of_same rfl (fun owed => .inl ?_)
    ⟨rfl, rfl, rfl, rfl, rfl, fun _ => rfl⟩)
  · rw [List.filter_append, filter_isStatus_ctlUnwaiting]
    exact Nat.zero_le 1
  · exact owed.elim id owes

theorem Moves.raiseResult (code : BitVec 8) (o : CommandOutcome) (n : Nat) :
    Moves allow s (s.raiseResult code o n) := by
  rw [State.raiseResult_eq]
  obtain ⟨t, noted⟩ : ∃ t, t = { s with statusChanged := s.statusChanged || s.statusWaiting } := ⟨_, rfl⟩
  have note : Moves allow s t := noted ▸ Moves.noted _ (by simp +contextual)
  have raised : Moves allow t { t with ctl := t.ctlUnwaiting ++ [t.resultRequest code o n] } :=
    Moves.resulted code o n fun waits => by
      rw [noted] at waits ⊢
      exact Bool.or_eq_true_iff.2 (.inr waits)
  subst noted
  exact note.trans raised

theorem Moves.raiseStatus : Moves allow s s.raiseStatus := by
  rw [State.raiseStatus_eq]
  obtain ⟨t, raised⟩ : ∃ t, t = { s with
      ctl := s.ctl ++ if s.statusChanged && s.reporting && !s.statusWaiting then [s.statusRequest] else [] } := ⟨_, rfl⟩
  have raise : Moves allow s t := by
    rw [raised]
    refine Move.once (.ctl _ ?_) (State.notes_raised _)
    split
    · rename_i due
      simp only [Bool.and_eq_true, Bool.not_eq_true', State.statusWaiting] at due
      obtain ⟨-, none_waits⟩ := due
      have none_there : s.ctl.filter CtlRequest.isStatus = [] := by
        rw [List.filter_eq_nil_iff]
        exact fun r member => by simpa using List.any_eq_false.1 none_waits r member
      refine .inr ?_
      rw [List.filter_append, none_there]
      exact le_rfl
    · rw [List.append_nil]
      exact .inl le_rfl
  have waits (reporting : t.reporting = true) (owed : t.Owed) : t.statusWaiting = true := by
    rw [raised] at reporting owed ⊢
    cases waiting : s.statusWaiting with
    | true =>
      rw [State.statusWaiting] at waiting ⊢
      rw [List.any_append, waiting, Bool.true_or]
    | false =>
      rcases owed with changed | waits
      · have changed : s.statusChanged = true := changed
        have reporting : s.reporting = true := reporting
        rw [changed, reporting]
        simp [State.statusWaiting, State.statusRequest, CtlRequest.isStatus]
      · rw [waiting] at waits
        exact waits
  have dropped : Moves allow t { t with statusChanged := false } :=
    Move.once (.aside _ _ _ _ _ _ _ _ _ _) ⟨rfl, fun reporting owed => .inr (waits reporting owed),
      fun _ => .inl (State.ShowsAs.word ⟨rfl, rfl, rfl, rfl, rfl, fun _ => rfl⟩)⟩
  subst raised
  exact raise.trans dropped

theorem Moves.raiseFetch (e : Engine) (w : Index8) (k : Selector) (p : Purpose) :
    Moves allow s (s.raiseFetch e w k p) := by
  unfold State.raiseFetch
  split
  · exact (Move.quiet (.aside _ _ _ _ _ _ _ _ _ _)).trans (Moves.raiseCtl (by simp) _ _ _)
  · exact Moves.refl

/-! ### Fault reports -/

theorem Moves.raiseRingWrite : Moves allow s s.raiseRingWrite := by
  rcases s.raiseRingWrite_cases with ⟨same, -⟩ | ⟨h, rest, g, staged, -, -, raised⟩
  · rw [same]
    exact Moves.refl
  · rw [raised]
    refine .trans (Move.quiet (.staged ({ h with writing := true } :: rest) (.inl ?_) ?_))
      (Moves.raiseCtl (by simp) _ _ _)
    · rw [staged]
      exact le_rfl
    · rw [staged]
      exact id

theorem Moves.stageRecord (r : FaultRecord) : Moves allow s (s.stageRecord r) := by
  rcases s.stageRecord_cases r with ⟨n, newest, takes⟩ | ⟨refuses, room | full⟩
  · rw [State.stageRecord_of_takes newest takes]
    have whole : s.staged.dropLast ++ [n] = s.staged := List.dropLast_append_getLast? n newest
    obtain ⟨front, split⟩ : ∃ front, s.staged = front ++ [n] := ⟨_, whole.symm⟩
    refine Move.quiet (.staged _ (.inl ?_) ?_)
    · simp [split]
    · rw [split, List.dropLast_concat]
      cases front with
      | nil => exact id
      | cons h front => simp [Staged.repeated]
  · rw [State.stageRecord_of_room refuses room]
    refine Move.quiet (.staged _ (.inr ?_) ?_)
    · rw [List.length_append]
      exact room
    · cases s.staged with
      | nil => exact fun _ => rfl
      | cons h rest => simp
  · rw [State.stageRecord_of_full refuses full]
    exact Moves.setOverflow

theorem Moves.takeRecord (r : FaultRecord) : Moves allow s (s.takeRecord r) := by
  rcases s.records_cases with records | drops | boot
  · rw [State.takeRecord_of_records records]
    exact (Moves.stageRecord r).trans Moves.raiseRingWrite
  · rw [State.takeRecord_of_dropped drops]
    exact Moves.setOverflow
  · rw [State.takeRecord_of_boot boot]
    exact Moves.refl

theorem Moves.applyErrorMode (e : Engine) : Moves allow s (s.applyErrorMode e) := by
  rw [State.applyErrorMode_eq]
  split
  · exact Moves.changePortState e .blocked
  · exact Moves.refl

theorem Moves.countFault (e : Engine) (r : FaultRecord) : Moves allow s (s.countFault e r) := by
  unfold State.countFault
  dsimp only
  split
  · exact ((Moves.countStorm e).trans (Moves.changePortState e .quiet)).trans (Moves.takeRecord _)
  · exact Moves.countStorm e

theorem Moves.report (r : FaultRecord) : Moves allow s (s.report r) := by
  unfold State.report
  split
  · exact Moves.takeRecord r
  · exact ((Moves.takeRecord r).trans (Moves.applyErrorMode _)).trans (Moves.countFault _ r)

theorem Moves.refuseFault (p : Port) (r : Request) (k : FaultKind) (w : Option Index8) (j : Option Selector)
    (phys : Option Word) : Moves allow s (s.refuseFault p r k w j phys) :=
  (Moves.decideWaiting p _).trans (Moves.report _)

end

end Sys2Proof.Machine

/-! Windows, locks, admission and grants, taken apart into moves. -/

namespace Sys2Proof.Machine

section
variable {s t u : State} {allow : Tag → Prop}

/-! ### Windows -/

theorem State.window_setWindow (s : State) (e e' : Engine) (w w' : Index8) (v : Window) :
    (s.setWindow e w v).window e' w' = if e' = e ∧ w' = w then v else s.window e' w' := by
  have unit : (s.setWindow e w v).eng e' =
      if e' = e then { s.eng e with windows := (s.eng e).windows.set w v } else s.eng e' := by
    split
    · rename_i same
      subst same
      exact s.engines.get_set_same e' _
    · rename_i other
      exact s.engines.get_set_other e e' _ other
  rw [State.window, unit]
  by_cases engine : e' = e
  · subst engine
    by_cases index : w' = w
    · subst index
      rw [if_pos rfl, if_pos ⟨rfl, rfl⟩, Eight.get_set_same]
    · rw [if_pos rfl, if_neg (by simp [index]), Eight.get_set_other _ _ _ _ index]
      rfl
  · rw [if_neg engine, if_neg (by simp [engine])]
    rfl

/-- The windows with one changed, and the ports with no hold made. -/
theorem State.windowsFollow_set {e : Engine} {w : Index8} {v : Window} {ports : PerPort PortUnit}
    (rotation : (s.window e w).rotationFits = true → v.rotationFits = true)
    (loading : v.isLoading = true → (s.window e w).isLoading = true ∨ s.command = some (.loadWindow e w))
    (fetching : (ports.get (.engine e)).hold = some (.window w) → (s.window e w).isFetching = true →
      v.isFetching = true) : s.WindowsFollow (s.setWindow e w v).engines ports := by
  have window (e' : Engine) (w' : Index8) : (((s.setWindow e w v).engines.get e').windows.get w') =
      if e' = e ∧ w' = w then v else s.window e' w' := s.window_setWindow e e' w w' v
  refine ⟨fun e' w' fits => ?_, fun e' w' load => ?_, fun e' w' held fetch => ?_⟩
  · rw [window]
    split
    · rename_i here
      obtain ⟨rfl, rfl⟩ := here
      exact rotation fits
    · exact fits
  · rw [window] at load
    split at load
    · rename_i here
      obtain ⟨rfl, rfl⟩ := here
      exact loading load
    · exact .inl load
  · rw [window]
    split
    · rename_i here
      obtain ⟨rfl, rfl⟩ := here
      exact fetching held fetch
    · exact fetch

theorem State.state_setWindow (s : State) (e e' : Engine) (w : Index8) (v : Window) :
    ((s.setWindow e w v).engines.get e').state = (s.eng e').state := by
  by_cases same : e' = e
  · subst same
    exact (congrArg EngineUnit.state (s.engines.get_set_same e' _)).trans rfl
  · exact congrArg EngineUnit.state (s.engines.get_set_other e e' _ same)

/-- Windows and holds changed, the states of the ports as they are. -/
theorem Moves.windows {engines : PerEngine EngineUnit} {ports : PerPort PortUnit}
    (follow : s.WindowsFollow engines ports) (holds : s.HoldsFollow ports fun _ _ => True)
    (states : ∀ e, (engines.get e).state = (s.eng e).state) :
    Moves allow s { s with engines := engines, ports := ports } :=
  Move.once (.windows engines ports follow holds)
    (State.notes_of_same rfl id ⟨rfl, rfl, rfl, rfl, rfl, states⟩)

theorem Moves.setWindow {e : Engine} {w : Index8} {v : Window}
    (rotation : (s.window e w).rotationFits = true → v.rotationFits = true)
    (loading : v.isLoading = true → (s.window e w).isLoading = true ∨ s.command = some (.loadWindow e w))
    (fetching : s.holdOf (.engine e) = some (.window w) → (s.window e w).isFetching = true → v.isFetching = true) :
    Moves allow s (s.setWindow e w v) :=
  Moves.windows (State.windowsFollow_set rotation loading fetching) s.holdsFollow_self fun _ =>
    s.state_setWindow e _ w v

/-- The ports with the hold on one window ended (R6). -/
def State.portsOffWindow (s : State) (e : Engine) (w : Index8) : PerPort PortUnit :=
  s.ports.set (.engine e) { s.unit (.engine e) with
    hold := if s.holdOf (.engine e) = some (.window w) then none else s.holdOf (.engine e) }

theorem State.holdsFollow_offWindow (s : State) (e : Engine) (w : Index8) :
    s.HoldsFollow (s.portsOffWindow e w) fun p h => p = .engine e → h ≠ .window w := by
  have unit (p : Port) : (s.portsOffWindow e w).get p = if p = .engine e then { s.unit (.engine e) with
      hold := if s.holdOf (.engine e) = some (.window w) then none else s.holdOf (.engine e) } else s.unit p := by
    split
    · rename_i same
      subst same
      exact s.ports.get_set_same _ _
    · rename_i other
      exact s.ports.get_set_other _ _ _ other
  refine ⟨fun p => ?_, fun p h held => ?_⟩
  · rw [unit]
    split
    · rename_i same
      rw [same]
      rfl
    · rfl
  · rw [unit] at held
    split at held
    · rename_i same
      subst same
      dsimp only at held
      split at held
      · cases held
      · rename_i off
        exact ⟨held, fun _ on => off (on ▸ held)⟩
    · rename_i other
      exact ⟨held, fun same => absurd same other⟩

theorem State.HoldsFollow.mono {ports : PerPort PortUnit} {remains remains' : Port → Hold → Prop}
    (holds : s.HoldsFollow ports remains) (weaker : ∀ p h, remains p h → remains' p h) : s.HoldsFollow ports remains' :=
  ⟨holds.queue, fun p h held => ⟨(holds.hold p h held).1, weaker p h (holds.hold p h held).2⟩⟩

theorem State.not_held_offWindow (s : State) (e : Engine) (w : Index8) :
    ((s.portsOffWindow e w).get (.engine e)).hold ≠ some (.window w) :=
  fun held => ((s.holdsFollow_offWindow e w).hold _ _ held).2 rfl rfl

theorem State.endWindowHold_setWindow_eq (s : State) (e : Engine) (w : Index8) (v : Window) :
    (s.setWindow e w v).endWindowHold e w =
      { s with engines := (s.setWindow e w v).engines, ports := s.portsOffWindow e w } := by
  rw [State.endWindowHold_eq]
  rfl

/-- A window changed and the hold on it ended (R6). -/
theorem Moves.closeWindow {e : Engine} {w : Index8} {v : Window}
    (rotation : (s.window e w).rotationFits = true → v.rotationFits = true)
    (loading : v.isLoading = true → (s.window e w).isLoading = true ∨ s.command = some (.loadWindow e w)) :
    Moves allow s ((s.setWindow e w v).endWindowHold e w) := by
  rw [State.endWindowHold_setWindow_eq]
  exact Moves.windows (State.windowsFollow_set rotation loading fun held => absurd held (s.not_held_offWindow e w))
    ((s.holdsFollow_offWindow e w).mono fun _ _ _ => trivial) fun _ => s.state_setWindow e _ w v

theorem Window.rotationFits_reset : Window.reset.rotationFits = true := rfl
theorem Window.not_isLoading_reset : Window.reset.isLoading = false := rfl

theorem Moves.cancelFetch (e : Engine) (w : Index8) : Moves allow s (s.cancelFetch e w) :=
  Move.quiet (.aside _ _ _ _ _ _ _ _ _ _)

theorem Moves.emptyWindow (e : Engine) (w : Index8) : Moves allow s (s.emptyWindow e w) := by
  have emptied : s.emptyWindow e w = ((s.setWindow e w Window.reset).endWindowHold e w).cancelFetch e w := by
    rw [State.emptyWindow_eq, State.endWindowHold_setWindow_eq]
    rfl
  rw [emptied]
  exact (Moves.closeWindow (fun _ => rfl) (fun loading => by cases loading)).trans (Moves.cancelFetch e w)

/-- The windows changed one by one, none of them made FETCHING or its rotation unfit (R59, R70). -/
theorem Moves.mapWindows {f : Window → Window} (rotation : ∀ v, v.rotationFits = true → (f v).rotationFits = true)
    (loading : ∀ v, (f v).isLoading = true → v.isLoading = true)
    (fetching : ∀ v, v.isFetching = true → (f v).isFetching = true) :
    Moves allow s (s.setEngines (s.engines.map fun u => { u with windows := u.windows.map f })) := by
  have window (e : Engine) (w : Index8) :
      ((s.engines.map fun u : EngineUnit => { u with windows := u.windows.map f }).get e).windows.get w =
        f (s.window e w) := by
    rw [PerEngine.get_map, Eight.get_map]
    rfl
  exact Moves.windows ⟨fun e w fits => (window e w).symm ▸ rotation _ fits,
    fun e w load => .inl (loading _ (window e w ▸ load)),
    fun e w _ fetch => (window e w).symm ▸ fetching _ fetch⟩ s.holdsFollow_self
    fun e => (congrArg EngineUnit.state (s.engines.get_map e _)).trans rfl

theorem Window.mark_kept (v : Window) : (v.rotationFits = true → v.mark.rotationFits = true) ∧
    v.mark.isLoading = v.isLoading ∧ v.mark.isFetching = v.isFetching := by
  obtain ⟨state, rotation⟩ := v
  cases state with
  | fetching p k again => cases p <;> exact ⟨id, rfl, rfl⟩
  | empty | valid | stale => exact ⟨id, rfl, rfl⟩

theorem Moves.markWindows (f : Window → Bool) : Moves allow s (s.markWindows f) := by
  refine Moves.mapWindows (fun v fits => ?_) (fun v loading => ?_) (fun v fetching => ?_) <;>
    obtain ⟨rotation, load, fetch⟩ := v.mark_kept
  · split
    · exact rotation fits
    · exact fits
  · split at loading
    · exact load ▸ loading
    · exact loading
  · split
    · exact fetch ▸ fetching
    · exact fetching

theorem Moves.snoop (ks : List Nat) : Moves allow s (s.snoop ks) := by
  induction ks generalizing s with
  | nil => exact Moves.refl
  | cons k ks ih => exact (Moves.markWindows _).trans ih

/-! ### The buffer -/

theorem Moves.setBuffer (b : Eight (Option Posted)) : Moves allow s (s.setBuffer b) :=
  Move.quiet (.aside _ _ _ _ _ _ _ _ _ _)

theorem Moves.fillEntry (v : Posted) : Moves allow s (s.fillEntry v) := by
  unfold State.fillEntry
  split
  · exact Moves.setBuffer _
  · exact Moves.refl

theorem Moves.setMarks (b : Bool) : Moves allow s (s.setMarks b) := Moves.setBuffer _

/-! ### The lock -/

theorem State.lockAgrees_iff : s.lockAgrees = true ↔
    (∀ l, s.lock = some l → (s.seqOf l.owner).holdsLockOn l.word = true) ∧
      ∀ p, (s.seqOf p).isHolding = true → ∃ l, s.lock = some l ∧ l.owner = p := by
  have only_owner : (allPorts.all fun p => !(s.seqOf p).isHolding || s.lock.any fun l => decide (l.owner = p)) = true ↔
      ∀ p, (s.seqOf p).isHolding = true → ∃ l, s.lock = some l ∧ l.owner = p := by
    have one (p : Port) : (!(s.seqOf p).isHolding || s.lock.any fun l => decide (l.owner = p)) = true ↔
        ((s.seqOf p).isHolding = true → ∃ l, s.lock = some l ∧ l.owner = p) := by
      cases (s.seqOf p).isHolding <;> simp [Option.any_eq_true]
    refine ⟨fun all p => (one p).1 (List.all_eq_true.1 all p (by rcases p with _ | _ | _ | _ <;> decide)),
      fun all => List.all_eq_true.2 fun p _ => (one p).2 (all p)⟩
  rw [State.lockAgrees, Bool.and_eq_true, only_owner, Option.all_eq_true]

/-- No lock, and no port HOLDING. -/
theorem lockAgrees_of_none (unlocked : t.lock = none) (none_holding : ∀ p, (t.seqOf p).isHolding = false) :
    t.lockAgrees = true :=
  State.lockAgrees_iff.2 ⟨fun _ lock => absurd (unlocked.symm.trans lock) (by simp),
    fun p holding => absurd ((none_holding p).symm.trans holding) (by simp)⟩

theorem State.seqs_set (s : State) (p q : Port) (r : Sequence) :
    (s.seqs.set p r).get q = if q = p then r else s.seqOf q := by
  split
  · rename_i same
    subst same
    exact s.seqs.get_set_same _ _
  · rename_i other
    exact s.seqs.get_set_other _ _ _ other

/-- With no other port owning the lock, no other port is HOLDING (R110). -/
theorem not_holding_of_other {p q : Port} (agree : s.lockAgrees = true) (alone : ∀ l, s.lock = some l → l.owner = p)
    (other : q ≠ p) : (s.seqOf q).isHolding = false := by
  refine Bool.eq_false_iff.2 fun holding => other ?_
  obtain ⟨l, lock, owner⟩ := (State.lockAgrees_iff.1 agree).2 q holding
  exact owner.symm.trans (alone l lock)

/-- The lock ends with its owner, or a port while none is held, no longer HOLDING. -/
theorem Moves.unlock {p : Port} {r : Sequence} (alone : s.lockAgrees = true → ∀ l, s.lock = some l → l.owner = p)
    (not_holding : r.isHolding = false) : Moves allow s ((s.setLock none).setSeq p r) := by
  refine Move.quiet (.sequences none (s.seqs.set p r) fun agree => lockAgrees_of_none rfl fun q => ?_)
  rw [State.seqOf, s.seqs_set]
  split
  · exact not_holding
  · rename_i other
    exact not_holding_of_other agree (alone agree) other

/-- A record that can take the place of another beside the lock: it holds the word that the other held, and is HOLDING
only where the other was. -/
def Sequence.Follows (q r : Sequence) : Prop :=
  (∀ w, q.holdsLockOn w = true → r.holdsLockOn w = true) ∧ (r.isHolding = true → q.isHolding = true)

theorem Moves.setSeq {p : Port} {r : Sequence} (follows : (s.seqOf p).Follows r) : Moves allow s (s.setSeq p r) := by
  obtain ⟨kept, holding⟩ := follows
  refine Move.quiet (.sequences s.lock (s.seqs.set p r) fun agree => ?_)
  obtain ⟨owner_holds, only_owner⟩ := State.lockAgrees_iff.1 agree
  refine State.lockAgrees_iff.2 ⟨fun l lock => ?_, fun q held => ?_⟩
  · rw [State.seqOf, s.seqs_set]
    split
    · rename_i same
      exact kept l.word (same ▸ owner_holds l lock)
    · exact owner_holds l lock
  · rw [State.seqOf, s.seqs_set] at held
    split at held
    · rename_i same
      exact same ▸ only_owner p (holding held)
    · exact only_owner q held

/-- The owner HOLDING is the only port that can own the lock (R110). -/
theorem alone_of_holding {p : Port} (holding : (s.seqOf p).isHolding = true) (agree : s.lockAgrees = true) :
    ∀ l, s.lock = some l → l.owner = p := by
  obtain ⟨l, lock, owner⟩ := (State.lockAgrees_iff.1 agree).2 p holding
  intro l' lock'
  cases lock.symm.trans lock'
  exact owner

/-- A step of R112 to R115: the record follows, or from HOLDING the lock ends. -/
def LockStep.Follows (q : Sequence) (l : LockStep) : Prop :=
  (l.endsLock = false ∧ q.Follows l.record) ∨ (l.endsLock = true ∧ q.isHolding = true ∧ l.record.isHolding = false)

theorem lockStep_follows (q : Sequence) (kind : Access) (touch : Bool) (info : SeqInfo) :
    (lockStep q kind touch info).Follows q := by
  cases q with
  | free lost => cases kind <;> exact .inl ⟨rfl, fun _ held => (nomatch held), fun held => nomatch held⟩
  | opening i =>
    have apart {r : Sequence} (not_holding : r.isHolding = false) : (Sequence.opening i).Follows r :=
      ⟨fun _ held => (nomatch held), fun held => absurd (not_holding.symm.trans held) (by simp)⟩
    cases kind <;> cases touch <;> exact .inl ⟨rfl, apart rfl⟩
  | holding i =>
    have closes : (Sequence.holding i).Follows (.closing i) := ⟨fun _ held => held, fun held => nomatch held⟩
    cases kind with
    | read | write =>
      cases touch
      · exact .inl ⟨rfl, fun _ => id, id⟩
      · exact .inr ⟨rfl, rfl, rfl⟩
    | lockRead => exact .inr ⟨rfl, rfl, rfl⟩
    | unlockWrite | unlock =>
      cases touch
      · exact .inr ⟨rfl, rfl, rfl⟩
      · exact .inl ⟨rfl, closes⟩
  | closing i => cases kind <;> exact .inl ⟨rfl, fun _ => id, id⟩

theorem Moves.applyLockStep {p : Port} {l : LockStep} (follows : l.Follows (s.seqOf p)) :
    Moves allow s (s.applyLockStep p l) := by
  have stepped : Moves allow s (if l.endsLock then (s.setSeq p l.record).setLock none else s.setSeq p l.record) := by
    rcases follows with ⟨stays, follows⟩ | ⟨ends, holding, not_holding⟩
    · rw [stays]
      exact Moves.setSeq follows
    · rw [ends]
      exact Moves.unlock (alone_of_holding holding) not_holding
  have unmarked (t : State) : Moves allow t (if l.unmarks then t.unmarkLockRead p else t) := by
    split
    · exact Moves.unmarkLockRead p
    · exact Moves.refl
  exact stepped.trans (unmarked _)

/-- The lock begins at the grant of a LOCK_READ of an eligible port (R116). -/
theorem Moves.beginLock {p : Port} (eligible : ∀ l, s.lock = some l → l.owner = p) :
    Moves allow s (s.beginLock p) := by
  have others (agree : s.lockAgrees = true) {l : Lock} (owner : l.owner = p) (r : Port → Sequence)
      (same : ∀ q, q ≠ p → r q = s.seqOf q) :
      ∀ q, (r q).isHolding = true → ∃ l', some l = some l' ∧ l'.owner = q := by
    intro q holding
    by_cases here : q = p
    · exact ⟨l, rfl, owner.trans here.symm⟩
    · rw [same q here, not_holding_of_other agree eligible here] at holding
      cases holding
  unfold State.beginLock
  split
  · rename_i i record
    refine Move.quiet (.sequences (some ⟨p, i.word, s.now, s.lockLimitOf p⟩) (s.seqs.set p (.holding i))
      fun agree => ?_)
    refine State.lockAgrees_iff.2 ⟨fun l lock => ?_, others agree rfl _ fun q other => ?_⟩
    · cases lock
      rw [State.seqOf, PerPort.get_set_same]
      exact decide_eq_true rfl
    · exact s.seqs.get_set_other p q _ other
  · rename_i i record
    refine Move.quiet (.sequences (some ⟨p, i.word, s.now, s.lockLimitOf p⟩) s.seqs fun agree => ?_)
    refine State.lockAgrees_iff.2 ⟨fun l lock => ?_, others agree rfl _ fun q other => rfl⟩
    cases lock
    have closing : ({ s with lock := some ⟨p, i.word, s.now, s.lockLimitOf p⟩ } : State).seqOf p = .closing i := record
    rw [closing]
    exact decide_eq_true rfl
  · exact Moves.refl
  · exact Moves.refl

theorem Moves.endLock {p : Port} (eligible : ∀ l, s.lock = some l → l.owner = p) : Moves allow s (s.endLock p) :=
  Moves.unlock (fun _ => eligible) rfl

end

end Sys2Proof.Machine

/-! Acceptance, admission, grants and the end of an event, taken apart into moves. -/

namespace Sys2Proof.Machine

section
variable {s t : State} {allow : Tag → Prop} {p : Port} {e : Engine} {r : Request} {a : Piece} {b : Option Piece}
  {v : Option Via} {posted : Bool}

/-! ### Acceptance -/

/-- A request behind those that wait (R2). -/
theorem QueueFollows.accepted {q : List QEntry} (r : Request) (room : q.length < Config.queueDepth) :
    QueueFollows q (q ++ [⟨r, .waiting⟩]) := by
  refine ⟨.inr ?_, fun g lenient all => ?_⟩
  · rw [List.length_append]
    exact room
  · rw [List.all_append, all, List.all_cons, lenient.free ⟨r, .waiting⟩ rfl]
    rfl

theorem Moves.present (p : Port) (r : Request) : Moves allow s (s.present p r) := by
  unfold State.present
  dsimp only
  split
  · exact Moves.refl
  · split
    · rename_i room
      exact Moves.setUnit ⟨.accepted r room, id⟩
    · exact Moves.setUnit ⟨.refl _, id⟩

/-! ### Admission -/

/-- The pieces reach no byte of the zone. -/
def State.Clear (s : State) (a : Piece) (b : Option Piece) : Prop :=
  ((piecesOf a b).all fun q => !s.reachesZone q) = true

/-- What passes steps 1 to 5 on an engine port keeps out of the zone, and passes in ACTIVE (R8, R80). -/
theorem State.clear_of_passed (passed : s.verdict p r = .passed a b v posted) (engine : p ≠ .p0) :
    s.opState = .active ∧ s.Clear a b := by
  cases p with
  | p0 => exact absurd rfl engine
  | engine e =>
    obtain ⟨active, -, -, -, windows⟩ := State.engineVerdict_passed passed
    obtain ⟨k, d, -, -, classified⟩ := State.windowVerdict_passed windows
    obtain ⟨off_zone, -, rfl, rfl, -⟩ := State.classify_passed classified
    refine ⟨active, List.all_eq_true.2 fun q member => ?_⟩
    simpa using List.any_eq_false.1 off_zone q member

theorem Moves.makeCandidate (clear : p ≠ .p0 → s.opState = .active ∧ s.Clear a b) :
    Moves allow s (s.makeCandidate p r a b v) := by
  refine Move.quiet (.candidate p _ (length_updateFirst _ _ _).le rfl fun engine => ?_)
  obtain ⟨active, off_zone⟩ := clear engine
  refine ⟨active, all_updateFirst (g := s.entryIsolated) fun _ _ _ => ?_⟩
  exact off_zone

theorem Moves.post : Moves allow s (s.post p r a b v) := by
  unfold State.post
  refine .trans ?_ (Moves.setUnit ⟨.refl _, id⟩)
  refine .trans ?_ (Moves.decideWaiting p _)
  cases b with
  | none => exact Moves.fillEntry _
  | some q => exact (Moves.fillEntry _).trans (Moves.fillEntry _)

theorem State.stands_bufferSpace : s.stands p .bufferSpace = true := by
  cases p <;> rfl

theorem Moves.route (clear : p ≠ .p0 → s.opState = .active ∧ s.Clear a b) :
    Moves allow s (s.route p r a b v posted) := by
  unfold State.route
  split
  · split
    · exact Moves.post
    · exact Moves.hold State.stands_bufferSpace
  · exact Moves.makeCandidate clear

theorem Moves.lockAndRoute (clear : p ≠ .p0 → s.opState = .active ∧ s.Clear a b) :
    Moves allow s (s.lockAndRoute p r a b v posted) := by
  obtain ⟨l, step⟩ : ∃ l, l = s.sequenceStep p r a b v := ⟨_, rfl⟩
  have unfolded : s.lockAndRoute p r a b v posted = match l.verdict with
      | .passed => (s.applyLockStep p l).route p r a b v posted
      | .lost => (s.applyLockStep p l).decideWaiting p (.refused .lockLost)
      | .sequence => (s.applyLockStep p l).refuseFault p r .lockSequence
          (v.map Via.window) (v.map Via.selector) none := by
    rw [step]
    rfl
  have stepped : Moves allow s (s.applyLockStep p l) := by
    rw [step]
    exact Moves.applyLockStep (lockStep_follows _ _ _ _)
  have still_clear : p ≠ .p0 → (s.applyLockStep p l).opState = .active ∧ (s.applyLockStep p l).Clear a b := by
    rw [State.applyLockStep_frame]
    exact clear
  rw [unfolded]
  cases l.verdict with
  | passed => exact stepped.trans (Moves.route still_clear)
  | lost => exact stepped.trans (Moves.decideWaiting p _)
  | sequence => exact stepped.trans (Moves.refuseFault p r _ _ _ _)

theorem Moves.refuse (c : RefusalCode) : Moves allow s (s.refuse p c) := by
  unfold State.refuse
  dsimp only
  split
  · exact (Moves.decideWaiting _ _).trans (Moves.countStorm _)
  · exact Moves.decideWaiting _ _
  · exact Moves.decideWaiting _ _

theorem State.not_held_of_classify {kind : Access} {via : Via} {h : Hold} : s.classify kind via a b ≠ .held h := by
  unfold State.classify
  split
  · simp
  · split <;> simp

theorem State.windowVerdict_held {h : Hold} (held : s.windowVerdict e r = .held h) :
    h = .window (windowIndex r.addr) ∧ (s.window e (windowIndex r.addr)).isFetching = true := by
  cases state : (s.window e (windowIndex r.addr)).state with
  | empty | stale => simp [State.windowVerdict, state] at held
  | fetching => simp_all [State.windowVerdict, Window.isFetching]
  | valid k d =>
    simp only [State.windowVerdict, state] at held
    split at held
    · cases held
    · exact absurd held State.not_held_of_classify

/-- The hold that a verdict names has its cause (R6). -/
theorem State.stands_of_held {h : Hold} (held : s.verdict p r = .held h) : s.stands p h = true := by
  cases p with
  | p0 =>
    have reloads (held : (if s.reloading then .held .reloadMap else s.checkedSupervisor r) = Verdict.held h) :
        s.supervisorHoldStands h = true := by
      split at held
      · rename_i reloading
        cases held
        exact reloading
      · unfold State.checkedSupervisor at held
        dsimp only at held
        split at held <;> cases held
    simp only [State.verdict, State.supervisorVerdict] at held
    split at held
    · cases held
    · cases held
    · cases held
    · exact reloads held
    · exact reloads held
  | engine e =>
    simp only [State.verdict, State.engineVerdict] at held
    split at held
    · cases held
    · cases held
    · rename_i loading
      cases held
      exact decide_eq_true loading
    · cases held
    · split at held
      · cases held
      · cases held
      · cases held
      · split at held
        · rename_i reloading
          cases held
          exact reloading
        · split at held
          · rename_i configuring
            cases held
            exact configuring
          · obtain ⟨rfl, fetching⟩ := State.windowVerdict_held held
            exact fetching

theorem State.not_refetch_of_classify {kind : Access} {via : Via} {e' : Engine} {w : Index8} {k : Selector} :
    s.classify kind via a b ≠ .refetch e' w k := by
  unfold State.classify
  split
  · simp
  · split <;> simp

theorem State.windowVerdict_refetch {e' : Engine} {w : Index8} {k : Selector}
    (refetch : s.windowVerdict e r = .refetch e' w k) : ∃ d, (s.window e' w).state = .stale k d := by
  cases state : (s.window e (windowIndex r.addr)).state with
  | empty | fetching => simp [State.windowVerdict, state] at refetch
  | stale j d =>
    simp only [State.windowVerdict, state, Verdict.refetch.injEq] at refetch
    obtain ⟨rfl, rfl, rfl⟩ := refetch
    exact ⟨d, state⟩
  | valid k d =>
    simp only [State.windowVerdict, state] at refetch
    split at refetch
    · cases refetch
    · exact absurd refetch State.not_refetch_of_classify

theorem State.not_refetch_of_supervisor {e' : Engine} {w : Index8} {k : Selector} :
    s.supervisorVerdict r ≠ .refetch e' w k := by
  have checked : s.checkedSupervisor r ≠ .refetch e' w k := by
    unfold State.checkedSupervisor
    dsimp only
    split <;> simp
  have held : (if s.reloading then .held .reloadMap else s.checkedSupervisor r) ≠ Verdict.refetch e' w k := by
    split
    · simp
    · exact checked
  unfold State.supervisorVerdict
  split
  · simp
  · simp
  · simp
  · exact held
  · exact held

/-- A refetch begins on a STALE window (R64). -/
theorem State.stale_of_refetch {e' : Engine} {w : Index8} {k : Selector} (refetch : s.verdict p r = .refetch e' w k) :
    ∃ d, (s.window e' w).state = .stale k d := by
  cases p with
  | p0 => exact absurd refetch State.not_refetch_of_supervisor
  | engine e =>
    simp only [State.verdict, State.engineVerdict] at refetch
    split at refetch
    · cases refetch
    · cases refetch
    · cases refetch
    · cases refetch
    · split at refetch
      · cases refetch
      · cases refetch
      · cases refetch
      · split at refetch
        · cases refetch
        · split at refetch
          · cases refetch
          · exact State.windowVerdict_refetch refetch

theorem Moves.startRefetch {w : Index8} {k : Selector} {d : Checked} (stale : (s.window e w).state = .stale k d) :
    Moves allow s (s.startRefetch e w k) := by
  have not_fetching : (s.window e w).isFetching = false := by rw [Window.isFetching, stale]
  unfold State.startRefetch
  refine .trans (.trans (Moves.setWindow (fun _ => rfl) (fun loading => absurd loading (by simp [Window.isLoading]))
    fun _ _ => rfl) (Moves.raiseFetch _ _ _ _)) (Moves.hold ?_)
  have window : ((s.setWindow e w { s.window e w with state := .fetching .refetch k false }).raiseFetch e w k
      .refetch).window e w = { s.window e w with state := .fetching .refetch k false } := by
    rw [State.raiseFetch_frame]
    exact (s.window_setWindow e e w w _).trans (if_pos ⟨rfl, rfl⟩)
  exact (congrArg Window.isFetching window).trans rfl

/-- Admission of one request (R6, R7). -/
theorem Moves.admitRequest (p : Port) (r : Request) : Moves allow s (s.admitRequest p r) := by
  unfold State.admitRequest
  split
  · rename_i passed
    exact Moves.lockAndRoute fun engine => State.clear_of_passed passed engine
  · exact Moves.refuse _
  · exact Moves.refuseFault p r _ _ _ _
  · rename_i held
    exact Moves.hold (State.stands_of_held held)
  · rename_i refetch
    obtain ⟨d, stale⟩ := State.stale_of_refetch refetch
    exact Moves.startRefetch stale

theorem Moves.setFreeCounter (n : Nat) : Moves allow s (s.setFreeCounter n) :=
  Move.quiet (.aside _ _ _ _ _ _ _ _ _ _)

theorem Moves.admitLapsed (p : Port) (r : Request) : Moves allow s (s.admitLapsed p r) := by
  unfold State.admitLapsed
  dsimp only
  refine (Moves.unhold p).trans ?_
  split
  · rename_i disputed
    split
    · refine (Moves.setFreeCounter _).trans (Moves.hold ?_)
      cases p with
      | p0 => cases disputed
      | engine e =>
        obtain ⟨-, configuring, -⟩ := State.lapseDisputed_iff.1 disputed
        exact configuring
    · exact (Moves.setFreeCounter _).trans (Moves.admitRequest p r)
  · exact Moves.admitRequest p r

theorem Moves.admitOldest (p : Port) : Moves allow s (s.admitOldest p) := by
  unfold State.admitOldest
  split
  · exact Moves.refl
  · split
    · exact Moves.admitRequest p _
    · exact Moves.admitLapsed p _
    all_goals exact Moves.refl

/-! ### Grants -/

theorem Moves.issue (room : s.issued.length < 8) (i : Issued) : Moves allow s (s.issue i) :=
  Move.quiet (.issued _ (.inr (by rw [List.length_append]; exact room)))

theorem Moves.grantAdmitted {a : Admitted} (room : s.issued.length < 8)
    (eligible : ∀ l, s.lock = some l → l.owner = p) : Moves allow s (s.grantAdmitted p r a) := by
  have issued (t : State) (room : t.issued.length < 8) (k : Access) :
      Moves allow t ((t.issuePiece p k a.place a.first).advanceAdmitted p a.place (.issued a false none)) :=
    (Moves.issue room _).trans (Moves.advanceAdmitted p _ fun _ => rfl)
  unfold State.grantAdmitted
  split
  · exact issued s room _
  · exact issued s room _
  · dsimp only
    split
    · exact (issued s room _).trans (Moves.beginLock eligible)
    · exact issued s room _
  · exact (Moves.endLock eligible).trans (issued (s.endLock p) room _)
  · exact (Moves.endLock eligible).trans (Moves.advanceAdmitted p _ fun _ => rfl)

theorem Moves.grantEntry {x : QEntry} (room : s.issued.length < 8) (eligible : ∀ l, s.lock = some l → l.owner = p) :
    Moves allow s (s.grantEntry p x) := by
  unfold State.grantEntry
  split
  · exact Moves.grantAdmitted room eligible
  · split
    · exact (Moves.issue room _).trans (Moves.advanceIssued p _ fun _ => rfl)
    · exact Moves.refl
  · exact Moves.refl
  · exact Moves.refl

theorem Moves.grantPort {c : Candidate} (room : s.issued.length < 8) (eligible : ∀ l, s.lock = some l → l.owner = p) :
    Moves allow s (s.grantPort p c) := by
  have pointed : Moves allow s (s.setRoundRobin p) := Move.quiet (.aside _ _ _ _ _ _ _ _ _ _)
  unfold State.grantPort
  split
  · exact pointed.trans (Moves.grantEntry (s := s.setRoundRobin p) room eligible)
  · exact pointed.trans ((Moves.setBuffer _).trans (Moves.issue (by exact room) _))

/-- The arbiter looks at eligible ports alone (R105, R111). -/
theorem State.eligible_of_nextPort {c : Candidate} (next : s.nextPort = some (p, c)) :
    ∀ l, s.lock = some l → l.owner = p := by
  obtain ⟨q, -, found⟩ := List.exists_of_findSome?_eq_some next
  split at found
  · rename_i eligible
    rw [Option.map_eq_some_iff] at found
    obtain ⟨c', -, same⟩ := found
    cases same
    exact fun l lock => of_decide_eq_true ((Option.all_eq_true _ _).1 eligible l lock)
  · cases found

/-- The oldest controller-originated request leaves its queue (R108). -/
theorem Moves.ctlTail {x : CtlRequest} {rest : List CtlRequest} (unnoted : allow .unnoted) (ctl : s.ctl = x :: rest) :
    Moves allow s (s.setCtl rest) := by
  refine Relation.ReflTransGen.single ⟨.ctl rest (.inl ?_), .inr unnoted⟩
  rw [ctl, List.filter_cons]
  split
  · exact Nat.le_succ _
  · exact le_rfl

/-- The grant of a port's item, where one is granted (R105). -/
theorem Moves.arbitratePorts (ctl : s.ctl = []) : Moves allow s s.arbitrate := by
  unfold State.arbitrate
  rw [ctl]
  split
  · rename_i room
    dsimp only
    split
    · rename_i next
      exact Moves.grantPort room (State.eligible_of_nextPort next)
    · exact Moves.refl
  · exact Moves.refl

theorem Moves.arbitrate (unnoted : allow .unnoted) : Moves allow s s.arbitrate := by
  cases ctl : s.ctl with
  | nil => exact Moves.arbitratePorts ctl
  | cons x rest =>
    unfold State.arbitrate
    rw [ctl]
    split
    · rename_i room
      exact (Moves.ctlTail unnoted ctl).trans (Moves.issue (by exact room) _)
    · exact Moves.refl

end

end Sys2Proof.Machine

/-! The beginnings and ends of commands, the completion of STOP and the end of an event, taken apart into moves. -/

namespace Sys2Proof.Machine

section
variable {s t u x : State} {allow : Tag → Prop} {code : BitVec 8} {o : CommandOutcome} {n : Nat}

/-! ### Final results -/

/-- The ports with the holds that satisfy a test ended (R6). -/
def portsWithout (ports : PerPort PortUnit) (f : Hold → Bool) : PerPort PortUnit :=
  ports.map fun u => if u.hold.any f then { u with hold := none } else u

theorem State.HoldsFollow.withoutHolds {ports : PerPort PortUnit} (holds : s.HoldsFollow ports fun _ _ => True)
    (f : Hold → Bool) : s.HoldsFollow (portsWithout ports f) fun _ h => f h = false := by
  have unit (p : Port) : (portsWithout ports f).get p =
      if (ports.get p).hold.any f then { ports.get p with hold := none } else ports.get p := ports.get_map p _
  refine ⟨fun p => ?_, fun p h held => ?_⟩
  · rw [unit, ← holds.queue p]
    split <;> rfl
  · rw [unit] at held
    split at held
    · cases held
    · rename_i off
      refine ⟨(holds.hold p h held).1, Bool.eq_false_iff.2 fun on => off ?_⟩
      rw [held]
      exact on

/-- Fewer holds on windows. -/
theorem State.WindowsFollow.withoutHolds {engines : PerEngine EngineUnit} {ports : PerPort PortUnit}
    (follow : s.WindowsFollow engines ports) (f : Hold → Bool) : s.WindowsFollow engines (portsWithout ports f) := by
  refine ⟨follow.rotation, follow.loading, fun e w held => follow.fetching e w ?_⟩
  have unit : (portsWithout ports f).get (.engine e) = if (ports.get (.engine e)).hold.any f then
      { ports.get (.engine e) with hold := none } else ports.get (.engine e) := ports.get_map _ _
  rw [unit] at held
  split at held
  · cases held
  · exact held

theorem State.windowsFollow_self (s : State) (ports : PerPort PortUnit) : s.WindowsFollow s.engines ports :=
  ⟨fun _ _ => id, fun _ _ => .inl, fun _ _ _ => id⟩

/-- Nothing that a command leaves stands in the way of its end: neither START nor STOP is in progress, and no window of
these is being loaded. -/
def State.Calm (s : State) (engines : PerEngine EngineUnit) : Prop :=
  s.commandAgrees = true → s.opState ≠ .loading ∧ s.opState ≠ .stopping ∧
    ∀ e w, ((engines.get e).windows.get w).isLoading = false

/-- A final result, in a state that differs in its windows and in holds that have ended (R158, R6). -/
theorem Moves.finalResult_of {engines : PerEngine EngineUnit} {ports : PerPort PortUnit}
    (shape : x = { s with engines := engines, ports := ports }) (follow : s.WindowsFollow engines ports)
    (holds : s.HoldsFollow ports fun _ _ => True) (calm : s.Calm engines)
    (states : ∀ e, (engines.get e).state = (s.eng e).state) : Moves allow s (x.finalResult code o n) := by
  obtain ⟨b, due⟩ : ∃ b, b = (s.statusChanged || s.statusWaiting || s.command.isSome || !s.causes.done) := ⟨_, rfl⟩
  obtain ⟨t, noted⟩ : ∃ t, t = { s with statusChanged := b } := ⟨_, rfl⟩
  obtain ⟨f, idle⟩ : ∃ f, f = { t with
    engines := engines, ports := portsWithout ports Hold.ofCommand, command := none } := ⟨_, rfl⟩
  obtain ⟨g, raised⟩ : ∃ g, g = { f with ctl := f.ctlUnwaiting ++ [f.resultRequest code o n] } := ⟨_, rfl⟩
  have note : Moves allow s t := noted ▸ Moves.noted b (by simp +contextual [due])
  have ended : Moves allow t f := by
    obtain ⟨rotation, loading, fetching⟩ := follow.withoutHolds Hold.ofCommand
    obtain ⟨queue, hold⟩ := holds.withoutHolds Hold.ofCommand
    rw [idle, noted]
    refine Move.once (.ended engines _ ⟨rotation, loading, fetching⟩ ⟨queue, hold⟩ calm)
      (State.notes_of_noted (b := s.command.isSome = true) rfl id (fun busy => .inl ?_)
        fun idle => ⟨rfl, ?_, rfl, rfl, rfl, states⟩)
    · rw [due, busy]
      simp
    · exact (Bool.eq_false_iff.2 idle).symm
  have resulted : Moves allow f g := by
    rw [raised]
    refine Moves.resulted code o n fun waits => ?_
    have waits : s.statusWaiting = true := by rw [idle, noted] at waits; exact waits
    rw [idle, noted, due, waits]
    simp
  have done : Moves allow g { g with causes := { g.causes with done := true } } := by
    refine Move.once (.causes _ id) (State.notes_of_noted (b := s.causes.done = false) rfl id (fun clear => .inl ?_)
      fun set => ?_)
    · rw [raised, idle, noted, due, clear]
      simp
    · refine ⟨rfl, rfl, ?_, rfl, rfl, fun _ => rfl⟩
      have set : g.causes.done = true := by rw [raised, idle, noted]; simpa using set
      rw [← set]
  rw [shape, State.finalResult_eq]
  rw [raised, idle, noted, due] at done
  subst raised idle noted due
  exact note.trans (ended.trans (resulted.trans done))

theorem Moves.finalResult (calm : s.Calm s.engines) : Moves allow s (s.finalResult code o n) :=
  Moves.finalResult_of rfl (s.windowsFollow_self _) s.holdsFollow_self calm fun _ => rfl

/-- A command that neither is START or STOP nor loads a window ends calmly. -/
theorem State.calm_of_command (idle_or : s.command = none ∨ s.opState = .active)
    (other : ∀ e w, s.command ≠ some (.loadWindow e w)) : s.Calm s.engines := by
  intro agrees
  have off : s.opState ≠ .loading ∧ s.opState ≠ .stopping := by
    rcases idle_or with idle | active
    · obtain ⟨fits, -, -⟩ := State.commandAgrees_iff.1 agrees
      rw [State.commandFits, idle, Bool.and_eq_true, decide_eq_true_eq, decide_eq_true_eq] at fits
      exact fits
    · rw [active]
      simp
  exact ⟨off.1, off.2, not_loading_of_command agrees other⟩

theorem State.calm_of_idle (idle : s.command = none) : s.Calm s.engines :=
  State.calm_of_command (.inl idle) (by simp [idle])

theorem State.calm_of_quick {k : Command} (command : s.command = some k)
    (inside : ∀ prior first, k ≠ .start prior first)
    (stays : k ≠ .stop) (other : ∀ e w, k ≠ .loadWindow e w) : s.Calm s.engines := by
  intro agrees
  have loads (e : Engine) (w : Index8) : s.command ≠ some (.loadWindow e w) := by
    rw [command]
    exact fun same => other e w (Option.some.inj same)
  exact State.calm_of_command (.inr (State.active_of_command agrees command inside stays)) loads agrees

/-! ### Commands begun -/

theorem Moves.begin {c : CommandWrite} {k : Command} (idle : s.command = none) (reporting : s.reporting = true)
    (fits : ({ s with command := some k } : State).commandFits = true) : Moves allow s (s.begin c k) := by
  have note : Moves allow s { s with statusChanged := true } := Moves.noted true fun _ => rfl
  rw [State.begin_eq, idle, Option.isSome_none, Bool.not_false, Bool.or_true, Bool.true_or]
  exact (note.trans (Moves.resulted _ _ _ fun _ => rfl)).owing (.begun k idle reporting fits) rfl (.inl rfl)

/-! ### STOP's completion and the end of an event -/

theorem Moves.discardStaged : Moves allow s s.discardStaged := by
  rw [State.discardStaged_eq]
  refine ((Moves.noted (s.statusChanged || (!s.staged.isEmpty && !s.causes.overflow)) (by simp +contextual)).trans
    (Move.once (.causes { s.causes with overflow := s.causes.overflow || !s.staged.isEmpty } id)
      (State.notes_of_noted (b := (!s.staged.isEmpty && !s.causes.overflow) = true) rfl id (fun set => .inl ?_)
        fun kept => ⟨rfl, rfl, ?_, rfl, rfl, fun _ => rfl⟩))).trans
    (Move.quiet (.staged [] (.inl (Nat.zero_le _)) fun _ => rfl))
  · exact Bool.or_eq_true_iff.2 (.inr set)
  · have same : (s.causes.overflow || !s.staged.isEmpty) = s.causes.overflow := by
      cases overflow : s.causes.overflow <;> simp_all
    dsimp only
    rw [same]

theorem State.noneAdmitted_of_idle (idle : s.enginesIdle = true) : s.NoneAdmitted := by
  intro e
  refine List.all_eq_true.2 fun x member => ?_
  have here := List.all_eq_true.1 (State.enginesIdle_iff.1 idle e) x member
  rw [Bool.and_eq_true] at here
  exact here.1

theorem State.noneAdmitted_refused (none_admitted : s.NoneAdmitted) (f : QEntry → Bool) (c : RefusalCode) :
    (s.refuseEngineEntries f c).NoneAdmitted := by
  intro e
  have queue : (s.refuseEngineEntries f c).queueOf (.engine e) =
      (s.queueOf (.engine e)).map fun x => if f x then x.decide (.refused c) else x := by
    rw [State.refuseEngineEntries_eq]
    cases e <;> rfl
  rw [queue]
  exact (QueueFollows.refused f _ _).all _ lenient_not_admitted (none_admitted e)

theorem Moves.completeStop (own : allow .completes) (stopping : s.opState = .stopping) (idle : s.enginesIdle = true) :
    Moves allow s s.completeStop := by
  obtain ⟨r, refused⟩ : ∃ r, r = ({ s with statusChanged := true } : State).refuseEngineEntries QEntry.isWaiting
    .notActive := ⟨_, rfl⟩
  obtain ⟨v, disabled⟩ : ∃ v, v = s.engines.map fun u =>
    { u with state := PortState.disabled, windows := eightOf Window.reset } := ⟨_, rfl⟩
  have refuse : Moves allow s r := refused ▸ (Moves.noted true fun _ => rfl).trans (Moves.refuseEngineEntries _ _)
  have booted : Moves allow r
      { r with engines := v, ports := r.portsUnheld, opState := .boot, command := none } := by
    refine Move.once (.stopCompleted own v ?_ ?_ fun e => ?_) (State.notes_of_owed rfl (.inl (by rw [refused]; rfl)))
    · rw [refused]
      exact stopping
    · rw [refused]
      exact State.noneAdmitted_refused (s := { s with statusChanged := true }) (State.noneAdmitted_of_idle idle) _ _
    · rw [disabled, PerEngine.get_map]
  have few : ((s.ctlUnwaiting ++ [s.resultRequest 2 .ok 0]).filter CtlRequest.isStatus).length ≤ 1 := by
    rw [List.filter_append, filter_isStatus_ctlUnwaiting]
    exact Nat.zero_le 1
  have shape : s.completeStop = { ({ r with
      engines := v, ports := r.portsUnheld, opState := .boot, command := none } : State).answerLinks with
        fetches := s.fetchesCancelled
        nextExpiry := none
        statusChanged := true
        ctl := s.ctlUnwaiting ++ [s.resultRequest 2 .ok 0]
        causes := { s.causes with done := true } } := by
    rw [State.completeStop_eq _ stopping, disabled, refused]
    rfl
  rw [shape]
  refine (((refuse.trans booted).trans Moves.answerLinks).trans ?_)
  obtain ⟨y, answered⟩ : ∃ y, y = ({ r with
      engines := v, ports := r.portsUnheld, opState := .boot, command := none } : State).answerLinks := ⟨_, rfl⟩
  have halt : y.causes.halt = s.causes.halt := by rw [answered, refused]; rfl
  rw [← answered]
  exact ((Moves.refl.owing (.aside y.p0LockLimit s.fetchesCancelled y.buffer y.roundRobin y.interval none true
    y.irqAsserted y.now y.freeCounter) rfl (.inl rfl)).owing (.ctl _ (.inr few)) rfl (.inl rfl)).owing
    (.causes { s.causes with done := true } fun set => halt ▸ set) rfl (.inl rfl)

theorem Moves.tryStop (own : allow .completes) : Moves allow s s.tryStop := by
  cases due : s.stopDue with
  | false =>
    rw [State.tryStop_of_not_due _ due]
    exact Moves.refl
  | true =>
    rw [State.tryStop_of_due _ due]
    simp only [State.stopDue, Bool.and_eq_true, decide_eq_true_eq] at due
    obtain ⟨⟨⟨stopping, idle⟩, -⟩, -⟩ := due
    refine Moves.discardStaged.trans (Moves.completeStop own ?_ ?_)
    · rw [State.discardStaged_eq]
      exact stopping
    · rw [State.discardStaged_eq]
      exact idle

theorem Moves.settle (own : allow .completes) : Moves allow s s.settle :=
  ((Moves.answerLinks.trans (Moves.tryStop own)).trans (Move.quiet (.aside _ _ _ _ _ _ _ _ _ _))).trans
    Moves.raiseStatus

end

end Sys2Proof.Machine

/-! What the events do to the operating state: START, STOP and HALT entry, each one turn between moves. -/

namespace Sys2Proof.Machine

section
variable {s t u : State} {allow : Tag → Prop} {o : CommandOutcome} {n : Nat}

/-! ### Events -/

theorem Move.mono {allow' : Tag → Prop} (weaker : ∀ k, allow k → allow' k) (move : Move allow s t) :
    Move allow' s t := by
  cases move with
  | aside => exact .aside _ _ _ _ _ _ _ _ _ _
  | causes c halt => exact .causes c halt
  | enables v own => exact .enables v (weaker _ own)
  | reporting => exact .reporting
  | indices p c own inside => exact .indices p c (own.imp_right (weaker _)) inside
  | ctl v few => exact .ctl v few
  | issued v few => exact .issued v few
  | staged v few head => exact .staged v few head
  | sequences l q agree => exact .sequences l q agree
  | ports v follow => exact .ports v follow
  | candidate p u length hold isolated => exact .candidate p u length hold isolated
  | windows engines ports follow holds => exact .windows engines ports follow holds
  | map m off => exact .map m off
  | begun k idle reporting fits => exact .begun k idle reporting fits
  | reading j k command same => exact .reading j k command same
  | ended engines ports follow holds calm => exact .ended engines ports follow holds calm
  | stopCompleted own engines stopping none_admitted emptied =>
    exact .stopCompleted (weaker _ own) engines stopping none_admitted emptied

theorem Moves.mono {allow' : Tag → Prop} (weaker : ∀ k, allow k → allow' k) (moves : Moves allow s t) :
    Moves allow' s t :=
  Relation.ReflTransGen.mono (fun _ _ step => ⟨step.1.mono weaker, step.2.imp_right (weaker _)⟩) s t moves

theorem Tag.allow_of_still (k : Tag) (still : Tag.still allow k) : allow k := by
  cases k with
  | completes => cases still
  | starts | enables | advances | unnoted => exact still

theorem Moves.acts (moves : Moves allow s t) : Acts allow s t := ⟨s, s, Moves.refl, .inl rfl, moves⟩

/-- A turn in a state in which an update is owed. -/
theorem Turn.acts (turn : Turn allow s t) (reporting : t.reporting = s.reporting) (owed : t.Owed) : Acts allow s t :=
  ⟨s, t, Moves.refl, .inr ⟨turn, State.notes_of_owed reporting owed⟩, Moves.refl⟩

theorem Acts.after (first : Moves (Tag.still allow) s t) (acts : Acts allow t u) : Acts allow s u := by
  obtain ⟨a, b, before, turn, behind⟩ := acts
  exact ⟨a, b, first.trans before, turn, behind⟩

theorem Acts.andMoves (acts : Acts allow s t) (moves : Moves allow t u) : Acts allow s u := by
  obtain ⟨a, b, before, turn, behind⟩ := acts
  exact ⟨a, b, before, turn, behind.trans moves⟩

/-! ### START and STOP taken -/

theorem Moves.raiseRead {k : CtlKind} (other : k ≠ .statusUpdate) (offset beats : Nat) :
    Moves allow s (s.raiseRead k offset beats) := Moves.raiseCtl other _ _ _

/-- A change is owed, whatever else is done. -/
theorem Moves.owes : Moves allow s { s with statusChanged := true } := Moves.noted true fun _ => rfl

theorem Acts.takeStart (idle : s.command = none) (rests : s.opState = .boot ∨ s.opState = .halted)
    (reporting : s.reporting = true) : Acts allow s s.takeStart := by
  have moves : s.opState ≠ .loading := by rcases rests with op | op <;> simp [op]
  obtain ⟨r, owing⟩ : ∃ r, r = { s with statusChanged := true } := ⟨_, rfl⟩
  obtain ⟨t, taken⟩ : ∃ t, t = { r with
      command := some (.start r.opState none), opState := .loading, ports := r.portsUnheld } := ⟨_, rfl⟩
  have owes : Moves (Tag.still allow) s r := owing ▸ Moves.owes
  have turn : Acts allow r t := by
    rw [taken, owing]
    exact (Turn.startTaken (s := { s with statusChanged := true }) idle rests reporting).acts rfl (.inl rfl)
  have entered : (s.begin .start (.start s.opState none)).changeOp .loading =
      { t with ctl := t.ctlUnwaiting ++ [t.resultRequest 1 .inProgress 0] } := by
    have moves : (s.begin .start (.start s.opState none)).opState ≠ .loading := by
      rw [State.begin_eq]
      exact moves
    rw [State.changeOp_eq, if_neg moves, decide_eq_true moves, Bool.or_true, State.begin_eq, taken, owing]
    rfl
  have resulted : Moves allow t { t with ctl := t.ctlUnwaiting ++ [t.resultRequest 1 .inProgress 0] } :=
    Moves.resulted _ _ _ fun _ => by rw [taken, owing]
  rw [State.takeStart, entered]
  exact ((Acts.after owes (turn.andMoves resulted)).andMoves (Moves.raiseRead (by simp) _ _)).andMoves
    (Moves.raiseRead (by simp) _ _)

theorem Moves.complete (idle : s.command = none) (c : CommandWrite) (o : CommandOutcome) :
    Moves allow s (s.complete c o) := Moves.finalResult (State.calm_of_idle idle)

theorem Acts.takeStop (own : allow .completes) (idle : s.command = none) (active : s.opState = .active)
    (reporting : s.reporting = true) : Acts allow s s.takeStop := by
  unfold State.takeStop
  split
  · exact (Moves.complete idle _ _).acts
  · obtain ⟨r, owing⟩ : ∃ r, r = { s with statusChanged := true } := ⟨_, rfl⟩
    obtain ⟨t, taken⟩ : ∃ t, t = { r with command := some .stop, opState := .stopping, ports := r.portsUnheld } :=
      ⟨_, rfl⟩
    have owes : Moves (Tag.still allow) s r := owing ▸ Moves.owes
    have turn : Acts allow r t := by
      rw [taken, owing]
      exact (Turn.stopTaken (s := { s with statusChanged := true }) idle active reporting).acts rfl (.inl rfl)
    have entered : (s.begin .stop .stop).changeOp .stopping =
        { t with ctl := t.ctlUnwaiting ++ [t.resultRequest 2 .inProgress 0] } := by
      have moves : (s.begin .stop .stop).opState ≠ .stopping := by
        rw [State.begin_eq, show _ = OpState.active from active]
        simp
      rw [State.changeOp_eq, if_neg moves, decide_eq_true moves, Bool.or_true, State.begin_eq, taken, owing]
      rfl
    have resulted : Moves allow t { t with ctl := t.ctlUnwaiting ++ [t.resultRequest 2 .inProgress 0] } :=
      Moves.resulted _ _ _ fun _ => by rw [taken, owing]
    rw [entered]
    exact ((Acts.after owes (turn.andMoves resulted)).andMoves (Moves.refuseEngineEntries _ _)).andMoves
      (Moves.tryStop own)

/-! ### HALT entry -/

theorem isHolding_seqsUnlocked (agree : s.lockAgrees = true) (p : Port) : (s.seqsUnlocked.get p).isHolding = false := by
  rcases p with _ | _ | _ | _
  · rw [State.seqsUnlocked]
    dsimp only [PerPort.get]
    split
    · rfl
    · rename_i unowned
      refine Bool.eq_false_iff.2 fun holding => unowned ?_
      obtain ⟨l, lock, owner⟩ := (State.lockAgrees_iff.1 agree).2 .p0 holding
      simp [State.owns, lock, owner]
  · rfl
  · rfl
  · rfl

/-- The Port Units as HALT entry leaves them, before the holds end. -/
def State.portsRefused (s : State) : PerPort PortUnit :=
  ⟨if s.owns .p0 && (s.seqOf .p0).isClosing then (s.unit .p0).closingRefused else s.unit .p0,
    s.ports.engines.map fun u =>
      { u with queue := u.queue.map fun z => if z.isWaiting || z.isAdmitted then z.decide (.refused .halted) else z }⟩

theorem State.follows_portsRefused (p : Port) : s.Follows p (s.unit p) (s.portsRefused.get p) := by
  have refused (e : Engine) : s.Follows (.engine e) (s.unit (.engine e)) { s.unit (.engine e) with
      queue := (s.unit (.engine e)).queue.map fun z =>
        if z.isWaiting || z.isAdmitted then z.decide (.refused .halted) else z } :=
    State.follows_queue (.refused _ _ _)
  rcases p with _ | _ | _ | _
  · have unit : s.portsRefused.get .p0 =
        if s.owns .p0 && (s.seqOf .p0).isClosing then (s.unit .p0).closingRefused else s.unit .p0 := rfl
    rw [unit]
    split
    · exact State.follows_queue (.updateFirst_free (fun _ => rfl) _)
    · exact s.follows_refl _ _
  · exact refused .p1
  · exact refused .p2
  · exact refused .p3

theorem noneAdmitted_portsRefused (ports : t.ports = s.portsRefused) : t.NoneAdmitted := by
  intro e
  have queue : t.queueOf (.engine e) = (s.queueOf (.engine e)).map fun z =>
      if z.isWaiting || z.isAdmitted then z.decide (.refused .halted) else z := by
    rw [State.queueOf, State.unit, ports]
    cases e <;> rfl
  rw [queue, List.all_map, List.all_eq_true]
  intro x _
  rw [Function.comp_apply]
  split
  · rfl
  · rename_i other
    have here := Bool.eq_false_iff.2 other
    rw [Bool.or_eq_false_iff] at here
    rw [here.2]
    rfl

theorem length_filter_ctlHalted (s : State) :
    (s.ctlHalted.filter CtlRequest.isStatus).length ≤ (s.ctl.filter CtlRequest.isStatus).length := by
  have kind (r : CtlRequest) :
      (if r.kind.isConfigRead then { r with cancelled := true } else r).isStatus = r.isStatus := by
    split <;> rfl
  rw [State.ctlHalted, List.filter_map, List.length_map]
  simp only [Function.comp_def, kind]
  exact (List.Sublist.filter _ List.filter_sublist).length_le

theorem Acts.haltEntry : Acts allow s s.haltEntry := by
  obtain ⟨t, ready⟩ : ∃ t, t = { s with
      staged := [], causes := { s.causes with overflow := s.causes.overflow || !s.staged.isEmpty }, ctl := s.ctlHalted,
      issued := s.issuedHalted, lock := none, seqs := s.seqsUnlocked, ports := s.portsRefused,
      statusChanged := true } :=
    ⟨_, rfl⟩
  have before (allow : Tag → Prop) : Moves allow s t := by
    have refused : Moves allow s { s with ports := s.portsRefused } :=
      Move.quiet (.ports s.portsRefused State.follows_portsRefused)
    rw [ready]
    exact (((((refused.trans Moves.owes).owing (.staged [] (.inl (Nat.zero_le _)) fun _ => rfl) rfl (.inl rfl)).owing
      (.causes { s.causes with overflow := s.causes.overflow || !s.staged.isEmpty } id) rfl (.inl rfl)).owing
      (.ctl s.ctlHalted (.inl (length_filter_ctlHalted s))) rfl (.inl rfl)).owing
      (.issued s.issuedHalted (.inl (List.length_map _).le)) rfl (.inl rfl)).owing
      (.sequences none s.seqsUnlocked fun agree => lockAgrees_of_none rfl (isHolding_seqsUnlocked (s := s) agree))
      rfl (.inl rfl)
  obtain ⟨h, halted⟩ : ∃ h, h = { t with
    engines := t.enginesEmptied, ports := t.portsUnheld, opState := .halted, command := none } := ⟨_, rfl⟩
  have owed : h.Owed := .inl (by rw [halted, ready])
  have turn : Acts allow t h := by
    subst halted
    exact (Turn.halted (noneAdmitted_portsRefused (s := s) (by rw [ready]))).acts rfl owed
  have unheld : t.portsUnheld = s.portsHalted := by
    rw [ready, State.portsHalted, State.portsUnheld]
    dsimp only [State.portsRefused, PerPort.map]
    split <;> rfl
  have entered : s.haltEntry = { h with
      fetches := s.fetchesCancelled
      buffer := s.buffer.map fun o => o.map fun v => { v with mark := false }
      nextExpiry := none
      statusChanged := true
      causes := { h.causes with halt := true } } := by
    rw [State.haltEntry_eq, halted, unheld, ready]
    rfl
  rw [entered]
  exact (Acts.after (before _) turn).andMoves ((Moves.refl.owing (.aside h.p0LockLimit s.fetchesCancelled
    (s.buffer.map fun o => o.map fun v => { v with mark := false }) h.roundRobin h.interval none true
    h.irqAsserted h.now h.freeCounter) rfl (.inl rfl)).owing (.causes { h.causes with halt := true } fun _ => rfl) rfl (.inl rfl))

end

end Sys2Proof.Machine

/-! The end of START, taken apart into moves and a turn (R163, R164). -/

namespace Sys2Proof.Machine

section
variable {s t u : State} {allow : Tag → Prop} {o : CommandOutcome} {n : Nat} {prior : OpState}

/-! ### The failure of START -/

theorem Moves.refuseHeld (e : Engine) : Moves allow s (s.refuseHeld e) := by
  unfold State.refuseHeld
  split
  · exact Moves.decideWaiting _ _
  · exact Moves.refl

/-- The holds that a change of the operating state leaves: none, or all where the state is not new (R6). -/
theorem State.holdsFollow_changeOp (s : State) (st : OpState) :
    s.HoldsFollow (s.changeOp st).ports fun _ _ => s.opState = st := by
  rw [State.changeOp_eq]
  by_cases same : s.opState = st
  · refine ⟨fun p => ?_, fun p h held => ?_⟩
    · dsimp only
      rw [if_pos same]
      rfl
    · dsimp only at held
      rw [if_pos same] at held
      exact ⟨held, same⟩
  · refine ⟨fun p => ?_, fun p h held => ?_⟩
    · dsimp only
      rw [if_neg same]
      exact s.queueOf_unheld p
    · dsimp only at held
      rw [if_neg same, s.holdOf_unheld p] at held
      cases held

theorem State.HoldsFollow.andWithout {ports : PerPort PortUnit} {remains : Port → Hold → Prop}
    (holds : s.HoldsFollow ports remains) (f : Hold → Bool) :
    s.HoldsFollow (portsWithout ports f) fun p h => remains p h ∧ f h = false := by
  have unit (p : Port) : (portsWithout ports f).get p =
      if (ports.get p).hold.any f then { ports.get p with hold := none } else ports.get p := ports.get_map p _
  have dropped := (holds.mono fun _ _ _ => trivial).withoutHolds f
  refine ⟨dropped.queue, fun p h held => ?_⟩
  obtain ⟨held_before, off⟩ := dropped.hold p h held
  refine ⟨held_before, ?_, off⟩
  rw [unit] at held
  split at held
  · cases held
  · exact (holds.hold p h held).2

theorem Acts.startFailure {x : Option Answer} (command : s.command = some (.start prior x)) :
    Acts allow s (s.startFailure prior o n) := by
  obtain ⟨t, refused⟩ : ∃ t, t = if prior = .halted then s.refuseEngineEntries QEntry.isWaiting .halted
      else ((s.refuseHeld .p1).refuseHeld .p2).refuseHeld .p3 := ⟨_, rfl⟩
  have before (allow : Tag → Prop) : Moves allow s t := by
    rw [refused]
    split
    · exact Moves.refuseEngineEntries _ _
    · exact ((Moves.refuseHeld .p1).trans (Moves.refuseHeld .p2)).trans (Moves.refuseHeld .p3)
  have still : t.command = s.command := by
    rw [refused]
    split
    · rfl
    · rw [State.refuseHeld_all]
  obtain ⟨queue, hold⟩ : t.HoldsFollow (portsWithout (t.changeOp prior).ports Hold.ofCommand) fun _ h =>
    t.opState = prior ∧ h.ofCommand = false := (t.holdsFollow_changeOp prior).andWithout _
  obtain ⟨r, owing⟩ : ∃ r, r = { t with statusChanged := true } := ⟨_, rfl⟩
  obtain ⟨f, failed⟩ : ∃ f, f = { r with
    ports := portsWithout (t.changeOp prior).ports Hold.ofCommand, opState := prior, command := none } := ⟨_, rfl⟩
  have owes : Moves (Tag.still allow) t r := owing ▸ Moves.owes
  have turn : Acts allow r f := by
    rw [failed, owing]
    exact (Turn.startFailed (s := { t with statusChanged := true }) prior _ ⟨x, still.trans command⟩
      ⟨queue, hold⟩).acts rfl (.inl rfl)
  have busy : t.command.isSome = true := by rw [still, command]; rfl
  have shape : s.startFailure prior o n = { ({ f with ctl := f.ctlUnwaiting ++ [f.resultRequest 1 o n] } : State)
      with causes := { f.causes with done := true } } := by
    obtain ⟨d, changed⟩ : ∃ d, d = t.changeOp prior := ⟨_, rfl⟩
    have still_busy : d.command.isSome = true := by rw [changed, State.changeOp_eq]; exact busy
    rw [State.startFailure_eq, ← refused, ← changed, State.finalResult_eq, still_busy, Bool.or_true, Bool.true_or,
      failed, owing, changed, State.changeOp_eq]
    rfl
  have resulted : Moves allow f { f with ctl := f.ctlUnwaiting ++ [f.resultRequest 1 o n] } :=
    Moves.resulted _ _ _ fun _ => by rw [failed, owing]
  have owed : f.statusChanged = true := by rw [failed, owing]
  rw [shape]
  exact ((Acts.after ((before _).trans owes) turn).andMoves resulted).andMoves
    (Moves.refl.owing (.causes { f.causes with done := true } id) rfl (.inl owed))

/-! ### The success of START -/

/-- What is left of the holds while the engine ports are started: holds of a command, and holds that stood on no
window. -/
def State.HoldsLoosely (s : State) (ports : PerPort PortUnit) : Prop :=
  (∀ p, (ports.get p).queue = s.queueOf p) ∧
    ∀ p h, (ports.get p).hold = some h → h.ofCommand = true ∨ (s.holdOf p = some h ∧ h.onWindow = false)

theorem State.holdsLoosely_emptied (s : State) : s.HoldsLoosely s.emptyAllWindows.ports := by
  have follow := s.holdsFollow_self.withoutHolds Hold.onWindow
  exact ⟨follow.queue, fun p h held => .inr (follow.hold p h held)⟩

theorem holdsLoosely_changePortState (loosely : s.HoldsLoosely t.ports) (e : Engine) (st : PortState) :
    s.HoldsLoosely (t.changePortState e st).ports := by
  obtain ⟨queues, holds⟩ := loosely
  rw [State.changePortState_eq]
  dsimp only
  split
  · exact ⟨queues, holds⟩
  · refine ⟨fun p => ?_, fun p h held => ?_⟩
    · by_cases same : p = .engine e
      · subst same
        rw [PerPort.get_set_same]
        exact queues (.engine e)
      · rw [PerPort.get_set_other _ _ _ _ same]
        exact queues p
    · by_cases same : p = .engine e
      · subst same
        rw [PerPort.get_set_same, PortUnit.afterPortChange] at held
        dsimp only at held
        split at held
        · cases held
          exact .inl rfl
        · cases held
      · rw [PerPort.get_set_other _ _ _ _ same] at held
        exact holds p h held

theorem holdsLoosely_startPort (loosely : s.HoldsLoosely t.ports) (e : Engine) (w : Word) :
    s.HoldsLoosely (t.startPort e w).ports :=
  holdsLoosely_changePortState (t := t.setEng e { t.eng e with settings := settingsOf w, storm := 0 }) loosely e _

/-- START's configuration in force, before its final result. -/
def State.startEntered (s : State) (c : Configuration) : State :=
  (((((s.configured c).portsStarted c).changeIndices 0 0).setInterval (intervalOf c.global)).setNextExpiry
    (some (s.now + intervalOf c.global))).clearHalt.changeOp .active

theorem State.portsStarted_frame (c : Configuration) : (s.configured c).portsStarted c = { s.configured c with
    engines := c.portWords.engines.map EngineUnit.fresh
    ports := ((s.configured c).portsStarted c).ports
    statusChanged := ((s.configured c).portsStarted c).statusChanged } := by
  rw [State.portsStarted_eq]
  rfl

theorem State.startSuccess_eq (c : Configuration) : s.startSuccess c = (s.startEntered c).finalResult 1 .ok 0 := by
  have now : ((((s.configured c).portsStarted c).changeIndices 0 0).setInterval (intervalOf c.global)).now = s.now := by
    rw [State.changeIndices_eq, State.portsStarted_frame]
    rfl
  rw [State.startEntered, ← now]
  rfl

theorem State.startEntered_eq (c : Configuration) : s.startEntered c = { s.startSucceeded c with
    ports := (s.startEntered c).ports
    statusChanged := (s.startEntered c).statusChanged } := by
  rw [State.startEntered, State.changeOp_eq, State.clearHalt_eq, State.changeIndices_eq, State.portsStarted_frame]
  rfl

/-- The holds as START's success leaves them, those of a command aside (R6). -/
theorem State.holdsFollow_startEntered (c : Configuration) :
    s.HoldsFollow (portsWithout (s.startEntered c).ports Hold.ofCommand) fun _ h =>
      s.opState = .active ∧ h.ofCommand = false ∧ h.onWindow = false := by
  obtain ⟨d, started⟩ : ∃ d, d = (s.configured c).portsStarted c := ⟨_, rfl⟩
  have loosely : s.HoldsLoosely d.ports := by
    rw [started]
    exact holdsLoosely_startPort (holdsLoosely_startPort (holdsLoosely_startPort (t := s.configured c)
      s.holdsLoosely_emptied _ _) _ _) _ _
  have op : d.opState = s.opState := by
    rw [started, State.portsStarted_frame]
    rfl
  have entered : (s.startEntered c).ports = (d.changeOp .active).ports := by
    rw [State.startEntered, State.changeOp_eq, State.clearHalt_eq, State.changeIndices_eq, State.changeOp_eq, ← started]
    rfl
  have follow := (d.holdsFollow_changeOp .active).andWithout Hold.ofCommand
  obtain ⟨queues, holds⟩ := loosely
  rw [entered]
  refine ⟨fun p => (follow.queue p).trans (queues p), fun p h held => ?_⟩
  obtain ⟨held_before, active, off⟩ := follow.hold p h held
  rcases holds p h held_before with on | ⟨held_first, off_window⟩
  · cases on.symm.trans off
  · exact ⟨held_first, op ▸ active, off, off_window⟩

theorem Acts.startSuccess {c : Configuration} {x : Option Answer} (own : allow .starts) (running : s.inReset = false)
    (command : s.command = some (.start prior x)) (valid : c.detail s.anc = 0) :
    Acts allow s (s.startSuccess c) := by
  have emptied (e : Engine) : ((c.portWords.engines.map EngineUnit.fresh).get e).windows = eightOf Window.reset := by
    rw [PerEngine.get_map]
    rfl
  obtain ⟨queue, hold⟩ := s.holdsFollow_startEntered c
  obtain ⟨r, owing⟩ : ∃ r, r = { s with statusChanged := true } := ⟨_, rfl⟩
  obtain ⟨f, started⟩ : ∃ f, f = { r with
    ring := some c.ring, table := some c.table, map := ⟨rangesOf c.rangeWords, defaultPostedOf c.global⟩,
    engines := c.portWords.engines.map EngineUnit.fresh,
    ports := portsWithout (s.startEntered c).ports Hold.ofCommand, producer := 0, consumer := 0,
    causes := { r.causes with halt := false }, opState := .active, command := none } := ⟨_, rfl⟩
  have owes : Moves (Tag.still allow) s r := owing ▸ Moves.owes
  have turn : Acts allow r f := by
    rw [started, owing]
    exact (Turn.started (s := { s with statusChanged := true }) own c (c.portWords.engines.map EngineUnit.fresh) _
      { s.causes with halt := false } running ⟨prior, x, command⟩ valid emptied ⟨queue, hold⟩).acts rfl (.inl rfl)
  have shape : s.startSuccess c = { ({ ({ f with
      p0LockLimit := (settingsOf c.portWords.p0).lockLimit
      fetches := s.fetchesCancelled
      interval := intervalOf c.global
      nextExpiry := some (s.now + intervalOf c.global)
      statusChanged := true } : State) with
        ctl := f.ctlUnwaiting ++ [f.resultRequest 1 .ok 0] } : State)
          with causes := { f.causes with done := true } } := by
    obtain ⟨d, entered⟩ : ∃ d, d = s.startEntered c := ⟨_, rfl⟩
    have busy : d.command.isSome = true := by rw [entered, State.startEntered_eq]; exact congrArg Option.isSome command
    rw [State.startSuccess_eq, ← entered, State.finalResult_eq, busy, Bool.or_true, Bool.true_or, started, owing,
      entered,
      State.startEntered_eq]
    rfl
  rw [shape]
  exact (((Acts.after owes turn).andMoves (Moves.refl.owing (.aside (settingsOf c.portWords.p0).lockLimit
    s.fetchesCancelled f.buffer f.roundRobin (intervalOf c.global)
      (some (s.now + intervalOf c.global)) true f.irqAsserted
    f.now f.freeCounter) rfl (.inl rfl))).andMoves (Moves.resulted 1 .ok 0 fun _ => rfl)).andMoves
    (Moves.refl.owing (.causes { f.causes with done := true } id) rfl (.inl rfl))

end

end Sys2Proof.Machine

/-! The commands and the live words, taken apart into moves. -/

namespace Sys2Proof.Machine

section
variable {s t u : State} {allow : Tag → Prop} {o : CommandOutcome} {n : Nat} {e : Engine} {w : Index8} {k : Selector}
  {p : Port}

/-! ### Commands taken in ACTIVE -/

theorem commandFits_of_active {m : Command} (active : s.opState = .active)
    (inside : (∃ e w, m = .loadWindow e w) ∨ (∃ p, m = .configurePort p) ∨ (∃ a, m = .reloadMap a) ∨ m = .drain) :
    ({ s with command := some m } : State).commandFits = true := by
  rcases inside with ⟨e, w, rfl⟩ | ⟨p, rfl⟩ | ⟨a, rfl⟩ | rfl <;> exact decide_eq_true active

theorem Moves.loadInto (command : s.command = some (.loadWindow e w)) : Moves allow s (s.loadInto e w k) := by
  unfold State.loadInto
  exact ((Moves.cancelFetch e w).trans (Moves.setWindow (s := s.cancelFetch e w) (fun _ => rfl) (fun _ => .inr command)
    fun _ _ => rfl)).trans (Moves.raiseFetch _ _ _ _)

theorem State.command_begin (c : CommandWrite) (m : Command) : (s.begin c m).command = some m := by
  rw [State.begin_eq]

theorem Moves.takeLoadWindow (idle : s.command = none) (active : s.opState = .active) (reporting : s.reporting = true)
    (p : Port) (w : Index8) (arg : Arg) : Moves allow s (s.takeLoadWindow p w arg) := by
  unfold State.takeLoadWindow
  split
  · exact Moves.complete idle _ _
  · split
    · exact (Moves.begin idle reporting (commandFits_of_active active (.inl ⟨_, _, rfl⟩))).trans
        (Moves.loadInto (State.command_begin _ _))
    · exact Moves.complete idle _ _

theorem State.command_emptyWindow (s : State) (e : Engine) (w : Index8) : (s.emptyWindow e w).command = s.command := by
  rw [State.emptyWindow_frame]

theorem Moves.takeClearWindow (idle : s.command = none) (p : Port) (w : Index8) :
    Moves allow s (s.takeClearWindow p w) := by
  unfold State.takeClearWindow
  split
  · exact Moves.complete idle _ _
  · exact (Moves.emptyWindow _ w).trans (Moves.complete ((s.command_emptyWindow _ w).trans idle) _ _)

/-- A window with the rotation that ROTATE gives it (R44). -/
theorem Window.rotationFits_rotated {v : Window} {m : Nat} {arg : Arg} (middle : v.middle? = some m)
    (below : arg.toNat < m) : ({ v with rotation := arg } : Window).rotationFits = true := by
  have fits (d : Checked) (middle : (match d.kind with
      | .rotating _ _ m _ => some m
      | .linear => none) = some m) : d.allowsRotation arg = true := by
    unfold Checked.allowsRotation
    split at middle
    · rename_i rotating
      cases middle
      rw [rotating]
      exact decide_eq_true below
    · cases middle
  obtain ⟨state, rotation⟩ := v
  cases state with
  | empty | fetching => cases middle
  | valid k d | stale k d => exact fits d middle

theorem Moves.takeRotate (idle : s.command = none) (p : Port) (w : Index8) (arg : Arg) :
    Moves allow s (s.takeRotate p w arg) := by
  unfold State.takeRotate
  split
  · exact Moves.complete idle _ _
  · split
    · exact Moves.complete idle _ _
    · rename_i m middle
      split
      · rename_i below
        exact (Moves.setWindow (fun _ => Window.rotationFits_rotated middle below) .inl fun _ => id).trans
          (Moves.complete (by exact idle) _ _)
      · exact Moves.complete idle _ _

theorem Moves.takeInvalidate (idle : s.command = none) (arg : Arg) : Moves allow s (s.takeInvalidate arg) := by
  unfold State.takeInvalidate
  split
  · exact (Moves.markWindows _).trans (Moves.complete (by exact idle) _ _)
  · exact Moves.complete idle _ _

theorem Moves.takeInvalidateAll (idle : s.command = none) : Moves allow s s.takeInvalidateAll :=
  (Moves.markWindows _).trans (Moves.complete (by exact idle) _ _)

theorem Moves.release (e : Engine) : Moves allow s (s.release e) := by
  unfold State.release
  split
  · exact Moves.refl
  · exact (Moves.changePortState e .opened).trans (Moves.setStorm e 0)

theorem State.command_changePortState (s : State) (e : Engine) (st : PortState) :
    (s.changePortState e st).command = s.command := by
  rw [State.changePortState_frame]

theorem State.command_release (s : State) (e : Engine) : (s.release e).command = s.command := by
  unfold State.release
  split
  · rfl
  · exact s.command_changePortState e .opened

theorem Moves.takeReleasePort (idle : s.command = none) (p : Port) : Moves allow s (s.takeReleasePort p) := by
  unfold State.takeReleasePort
  split
  · exact Moves.complete idle _ _
  · exact (Moves.release _).trans (Moves.complete ((s.command_release _).trans idle) _ _)

theorem Moves.takeConfigurePort (idle : s.command = none) (active : s.opState = .active)
    (reporting : s.reporting = true) (p : Port) : Moves allow s (s.takeConfigurePort p) :=
  (Moves.begin idle reporting (commandFits_of_active active (.inr (.inl ⟨_, rfl⟩)))).trans
    (Moves.raiseRead (by simp) _ _)

theorem Moves.takeReloadMap (idle : s.command = none) (active : s.opState = .active) (reporting : s.reporting = true) :
    Moves allow s s.takeReloadMap :=
  ((Moves.begin idle reporting (commandFits_of_active active (.inr (.inr (.inl ⟨_, rfl⟩))))).trans
    (Moves.raiseRead (by simp) _ _)).trans (Moves.raiseRead (by simp) _ _)

theorem Moves.completeDrain (draining : s.command = some .drain) : Moves allow s s.completeDrain :=
  Moves.finalResult (State.calm_of_quick draining (by simp) (by simp) (by simp))

theorem Moves.takeDrain (idle : s.command = none) (active : s.opState = .active) (reporting : s.reporting = true) :
    Moves allow s s.takeDrain := by
  have begun : Moves allow s ((s.setMarks true).begin .drain .drain) :=
    (Moves.setMarks true).trans (Moves.begin idle reporting
      (commandFits_of_active (s := s.setMarks true) active (.inr (.inr (.inr rfl)))))
  unfold State.takeDrain
  dsimp only
  split
  · exact begun
  · exact begun.trans (Moves.completeDrain (State.command_begin _ _))

theorem Moves.inActive {c : CommandWrite} (f : State → State) (idle : s.command = none)
    (moves : s.opState = .active → Moves allow s (f s)) : Moves allow s (s.inActive c f) := by
  unfold State.inActive
  split
  · rename_i active
    exact moves active
  · exact Moves.complete idle _ _

theorem Acts.takeCommand (own : allow .completes) (idle : s.command = none) (reporting : s.reporting = true)
    (c : CommandWrite) : Acts allow s (s.takeCommand c) := by
  cases c with
  | ignored => exact Moves.refl.acts
  | malformed => exact (Moves.complete idle _ _).acts
  | unknown code => exact (Moves.complete idle _ _).acts
  | start =>
    show Acts allow s (if s.opState = .boot ∨ s.opState = .halted then s.takeStart else s.complete .start .wrongState)
    split
    · rename_i rests
      exact Acts.takeStart idle rests reporting
    · exact (Moves.complete idle _ _).acts
  | stop =>
    show Acts allow s (if s.opState = .active then s.takeStop else s.complete .stop .wrongState)
    split
    · rename_i active
      exact Acts.takeStop own idle active reporting
    · exact (Moves.complete idle _ _).acts
  | loadWindow p w arg =>
    exact (Moves.inActive (fun t => t.takeLoadWindow p w arg) idle fun active =>
      Moves.takeLoadWindow idle active reporting p w arg).acts
  | clearWindow p w =>
    exact (Moves.inActive (fun t => t.takeClearWindow p w) idle fun _ => Moves.takeClearWindow idle p w).acts
  | rotate p w arg =>
    exact (Moves.inActive (fun t => t.takeRotate p w arg) idle fun _ => Moves.takeRotate idle p w arg).acts
  | invalidate arg =>
    exact (Moves.inActive (fun t => t.takeInvalidate arg) idle fun _ => Moves.takeInvalidate idle arg).acts
  | invalidateAll => exact (Moves.inActive State.takeInvalidateAll idle fun _ => Moves.takeInvalidateAll idle).acts
  | releasePort p =>
    exact (Moves.inActive (fun t => t.takeReleasePort p) idle fun _ => Moves.takeReleasePort idle p).acts
  | configurePort p =>
    exact (Moves.inActive (fun t => t.takeConfigurePort p) idle fun active =>
      Moves.takeConfigurePort idle active reporting p).acts
  | reloadMap =>
    exact (Moves.inActive State.takeReloadMap idle fun active => Moves.takeReloadMap idle active reporting).acts
  | drain => exact (Moves.inActive State.takeDrain idle fun active => Moves.takeDrain idle active reporting).acts

theorem Acts.commandWritten (own : allow .completes) (unnoted : allow .unnoted) (c : CommandWrite) :
    Acts allow s (s.commandWritten c) := by
  unfold State.commandWritten
  split
  · exact Moves.refl.acts
  · split
    · exact Moves.setOverrun.acts
    · rename_i not_busy
      have idle : s.command = none := by simpa using not_busy
      exact Acts.after (Relation.ReflTransGen.single ⟨.reporting, .inr unnoted⟩)
        (Acts.takeCommand (s := s.setReporting true) own idle rfl c)

theorem Acts.commandWord (own : allow .completes) (unnoted : allow .unnoted) (l : Lanes) (x : Word) :
    Acts allow s (s.commandWord l x) := by
  unfold State.commandWord
  split
  · exact Moves.refl.acts
  · exact Acts.commandWritten own unnoted _

/-! ### The other live words -/

theorem Moves.changeIndices {p c : Nat} (own : p = s.producer ∨ allow .advances)
    (inside : s.indicesInRing = true → ({ s with producer := p, consumer := c } : State).indicesInRing = true) :
    Moves allow s (s.changeIndices p c) := by
  rw [State.changeIndices_eq]
  refine (Moves.noted (s.statusChanged || (decide (p ≠ s.producer) || (decide (p ≠ c) != s.queueCause)))
    (by simp +contextual)).trans (Move.once (.indices p c own inside) ⟨rfl, fun _ => id, fun _ => ?_⟩)
  cases changed : decide (p ≠ s.producer) || (decide (p ≠ c) != s.queueCause) with
  | true => exact .inr (.inl (Bool.or_true _))
  | false =>
    obtain ⟨producer, queue⟩ := Bool.or_eq_false_iff.1 changed
    have producer : p = s.producer := by simpa using producer
    refine .inl ⟨(State.statusWord_eq_iff _ _).2 ⟨rfl, rfl, ?_, rfl, fun _ => rfl⟩, producer⟩
    simpa [State.queueCause] using queue

theorem Moves.consume (v : Nat) : Moves allow s (s.consume v) := by
  unfold State.consume
  split
  · rename_i taken
    obtain ⟨g, ring⟩ : ∃ g, s.ring = some g := by
      rw [State.takesConsumer, Option.any_eq_true] at taken
      obtain ⟨g, ring, -⟩ := taken
      exact ⟨g, ring⟩
    refine (Moves.changeIndices (.inl rfl) fun inside => ?_).trans Moves.raiseRingWrite
    obtain ⟨size, producer, -⟩ := (State.indicesInRing_iff ring).1 inside
    exact (State.indicesInRing_iff (s := { s with producer := s.producer, consumer := v }) ring).2
      ⟨size, producer, ((State.takesConsumer_iff ring).1 taken).1⟩
  · exact Moves.setMisuse

theorem Moves.consumerWord (l : Lanes) (x : Word) : Moves allow s (s.consumerWord l x) := by
  unfold State.consumerWord
  split
  · exact Moves.refl
  · split
    · split
      · exact Moves.consume _
      · exact Moves.setMisuse
    · exact Moves.refl

theorem Moves.enableWord (own : allow .enables) (l : Lanes) (x : Word) : Moves allow s (s.enableWord l x) := by
  unfold State.enableWord
  split
  · exact Moves.refl
  · split
    · exact Move.quiet (.enables _ own)
    · exact Moves.setMisuse

theorem Moves.acknowledgeWord (l : Lanes) (x : Word) : Moves allow s (s.acknowledgeWord l x) := by
  unfold State.acknowledgeWord
  split
  · exact Moves.refl
  · split
    · exact Moves.changeCauses id
    · exact Moves.setMisuse

/-! ### The hand-over -/

theorem Moves.actLive {f : State → Lanes → Word → State} (moves : ∀ l x, Moves allow s (f s l x))
    (ws : List (Word × Beat)) (offset : Nat) : Moves allow s (s.actLive ws offset f) := by
  unfold State.actLive
  split
  · exact moves _ _
  · exact Moves.refl

theorem Acts.actLiveWords (completes : allow .completes) (enables : allow .enables) (unnoted : allow .unnoted)
    (ws : List (Word × Beat)) :
    Acts allow s (s.actLiveWords ws) := by
  have command : Acts allow s (s.actLive ws 0x00 State.commandWord) := by
    unfold State.actLive
    split
    · exact Acts.commandWord completes unnoted _ _
    · exact Moves.refl.acts
  exact ((command.andMoves (Moves.actLive Moves.consumerWord ws _)).andMoves
    (Moves.actLive (Moves.enableWord enables) ws _)).andMoves (Moves.actLive Moves.acknowledgeWord ws _)

theorem Acts.handOver (completes : allow .completes) (enables : allow .enables) (unnoted : allow .unnoted) (a : Word)
    (data : List Beat) :
    Acts allow s (s.handOver a data) := by
  unfold State.handOver
  dsimp only
  split
  · split
    · exact (Acts.after (Moves.setFreeCounter _) (Acts.actLiveWords completes enables unnoted _)).andMoves
        (Moves.snoop _)
    · exact Acts.after ((Moves.setFreeCounter _).trans (Moves.snoop _)) (Acts.actLiveWords completes enables unnoted _)
  · exact (Acts.actLiveWords completes enables unnoted _).andMoves (Moves.snoop _)

end

end Sys2Proof.Machine

/-! The answers of memory and the expiries, taken apart into moves, and every event. -/

namespace Sys2Proof.Machine

section
variable {s t u : State} {allow : Tag → Prop} {o : CommandOutcome} {n : Nat} {e : Engine} {w : Index8} {k : Selector}
  {p : Port} {r : Request} {a : Admitted} {ans : Answer}

/-! ### Pieces and posted entries -/

theorem Moves.failEntry (phys : Word) : Moves allow s (s.failEntry p r a phys) :=
  (Moves.advanceIssued p _ fun _ => rfl).trans (Moves.report _)

theorem Acts.completeOne (completes : allow .completes) (enables : allow .enables) (unnoted : allow .unnoted) :
    Acts allow s (s.completeOne p r a ans) := by
  unfold State.completeOne
  split
  · dsimp only
    split
    · exact (Acts.handOver completes enables unnoted _ _).andMoves (Moves.advanceIssued p _ fun _ => rfl)
    · exact (Moves.advanceIssued p _ fun _ => rfl).acts
  · exact (Moves.failEntry _).acts

theorem Moves.completeTwo {z : Piece} {x y : Answer} : Moves allow s (s.completeTwo p r a z x y) := by
  unfold State.completeTwo
  split
  · exact Moves.advanceIssued p _ fun _ => rfl
  · exact Moves.failEntry _
  · exact Moves.failEntry _

theorem Acts.answerEntry (completes : allow .completes) (enables : allow .enables) (unnoted : allow .unnoted)
    (x : QEntry) : Acts allow s (s.answerEntry p x ans) := by
  unfold State.answerEntry
  split
  · split
    · exact Acts.completeOne completes enables unnoted
    · exact (Moves.advanceIssued p _ fun _ => rfl).acts
    · exact Moves.completeTwo.acts
  all_goals exact Moves.refl.acts

theorem Acts.answerPiece (completes : allow .completes) (enables : allow .enables) (unnoted : allow .unnoted)
    (i : Issued) : Acts allow s (s.answerPiece i ans) := by
  unfold State.answerPiece
  split
  · split
    · exact Acts.answerEntry completes enables unnoted _
    · exact Moves.refl.acts
  all_goals exact Moves.refl.acts

theorem Moves.freeEntry (i : Index8) : Moves allow s (s.freeEntry i) := (Moves.setBuffer _).trans (Moves.endHolds _)

theorem Moves.tryDrain : Moves allow s s.tryDrain := by
  unfold State.tryDrain
  split
  · rename_i due
    exact Moves.completeDrain due.1
  · exact Moves.refl

theorem Moves.answerPosted (i : Issued) (ack : Ack) : Moves allow s (s.answerPosted i ack) := by
  unfold State.answerPosted
  split
  · split
    · dsimp only
      split
      · exact (Moves.freeEntry _).trans Moves.tryDrain
      · exact ((Moves.freeEntry _).trans (Moves.report _)).trans Moves.tryDrain
    · exact Moves.refl
  all_goals exact Moves.refl

/-! ### Descriptor fetches -/

/-- The rotation that a completion gives fits a descriptor that passed the checks (R28, R39, R65). -/
theorem allowsRotation_after {d : Descriptor} (valid : d.detail e = 0) (purpose : Purpose) (before : Arg) :
    d.checked.allowsRotation (rotationAfter purpose before d.checked) = true := by
  have initial (rotating : d.rotating = true) : d.initial.toNat < d.middle := by
    by_contra above
    rw [Nat.not_lt] at above
    simp only [Descriptor.detail, rotating, above, decide_true, Bool.and_self, if_true] at valid
    split_ifs at valid
  cases rotating : d.rotating with
  | false =>
    have linear : d.checked.kind = .linear := by rw [Descriptor.checked, rotating]; rfl
    rw [Checked.allowsRotation, rotationAfter, linear]
    rfl
  | true =>
    have kind : d.checked.kind = .rotating d.head d.tail d.middle d.initial := by
      rw [Descriptor.checked, rotating]
      rfl
    have allows (r : Arg) : d.checked.allowsRotation r = decide (r.toNat < d.middle) := by
      rw [Checked.allowsRotation, kind]
    rw [allows, decide_eq_true_eq]
    cases purpose with
    | load =>
      rw [rotationAfter_load, if_pos rotating]
      exact initial rotating
    | refetch =>
      rw [rotationAfter_refetch, if_pos rotating]
      split
      · assumption
      · exact initial rotating

/-- The end of a LOAD: its window leaves FETCHING with its final result (R39). -/
theorem Moves.loadEnded {v : Window} (loading : (s.window e w).isLoading = true) (fits : v.rotationFits = true)
    (ended : v.isLoading = false) :
    Moves allow s (((s.setWindow e w v).endWindowHold e w).finalResult 3 o n) := by
  refine Moves.finalResult_of (s.endWindowHold_setWindow_eq e w v)
    (State.windowsFollow_set (fun _ => fits) (fun load => absurd load (by simp [ended]))
      fun held => absurd held (s.not_held_offWindow e w))
    ((s.holdsFollow_offWindow e w).mono fun _ _ _ => trivial) (fun agrees => ?_) fun _ => s.state_setWindow e _ w v
  have command := State.command_of_loading agrees loading
  have active := State.active_of_command agrees command (by simp) (by simp)
  refine ⟨by simp [active], by simp [active], fun e' w' => ?_⟩
  have window : ((s.setWindow e w v).engines.get e').windows.get w' =
      if e' = e ∧ w' = w then v else s.window e' w' := s.window_setWindow e e' w w' v
  rw [window]
  split
  · exact ended
  · rename_i other
    refine Bool.eq_false_iff.2 fun load => other ?_
    have same := command.symm.trans (State.command_of_loading agrees load)
    simp only [Option.some.injEq, Command.loadWindow.injEq] at same
    exact ⟨same.1.symm, same.2.symm⟩

theorem Moves.completeLoad (loading : (s.window e w).isLoading = true) : Moves allow s (s.completeLoad e w k ans) := by
  unfold State.completeLoad
  split
  · exact Moves.loadEnded loading rfl rfl
  · dsimp only
    split
    · rename_i valid
      exact Moves.loadEnded loading (allowsRotation_after valid .load (s.window e w).rotation) rfl
    · exact Moves.loadEnded loading rfl rfl

theorem State.decideWaiting_unheld (p : Port) (d : Response) :
    (s.setHold p none).decideWaiting p d = s.decideWaiting p d := by
  simp only [State.decideWaiting, State.setHold, State.setUnit, State.setPorts, State.unit, State.queueOf,
    PerPort.get_set_same, PerPort.set_set_same]

theorem State.now_setHold (p : Port) (h : Option Hold) : (s.setHold p h).now = s.now := rfl

/-- A refetch that fails (R66, R67, R68). -/
theorem Moves.failRefetch (f : FaultKind) : Moves allow s (s.failRefetch e w k f) := by
  have closed : Moves allow s ((s.setWindow e w Window.reset).endWindowHold e w) :=
    Moves.closeWindow (fun _ => rfl) fun loading => by cases loading
  unfold State.failRefetch
  dsimp only
  split
  · rename_i held
    have unheld : (s.setWindow e w Window.reset).endWindowHold e w =
        (s.setWindow e w Window.reset).setHold (.engine e) none := if_pos held
    split
    · rename_i x _
      refine .trans (t := (s.setWindow e w Window.reset).decideWaiting (.engine e) (.refused (.fault f))) ?_
        (Moves.report _)
      rw [← State.decideWaiting_unheld, ← unheld]
      exact closed.trans (Moves.decideWaiting _ _)
    · exact closed
  · rename_i unheld
    exact Moves.setWindow (fun _ => rfl) (fun loading => by cases loading) fun held => absurd held unheld

theorem Moves.completeRefetch : Moves allow s (s.completeRefetch e w k ans) := by
  unfold State.completeRefetch
  split
  · exact Moves.failRefetch _
  · dsimp only
    split
    · rename_i valid
      exact Moves.closeWindow (fun _ => allowsRotation_after valid .refetch (s.window e w).rotation)
        fun loading => by cases loading
    · exact Moves.failRefetch _

theorem Moves.fetchCompletion : Moves allow s (s.fetchCompletion e w ans) := by
  unfold State.fetchCompletion
  split
  · rename_i purpose j fetching
    refine .trans (Moves.setWindow (fun _ => rfl) (fun loading => .inl ?_) fun _ _ => rfl) (Moves.raiseFetch _ _ _ _)
    rw [Window.isLoading, fetching]
    cases purpose with
    | load => rfl
    | refetch => cases loading
  · rename_i fetching
    exact Moves.completeLoad (by rw [Window.isLoading, fetching])
  · exact Moves.completeRefetch
  all_goals exact Moves.refl

theorem Moves.answerFetch : Moves allow s (s.answerFetch ans) := by
  unfold State.answerFetch
  split
  · exact Moves.refl
  · have taken (l : List Fetch) : Moves allow s (s.setFetches l) := Move.quiet (.aside _ _ _ _ _ _ _ _ _ _)
    dsimp only
    split
    · exact (taken _).trans Moves.fetchCompletion
    · exact taken _

/-! ### The reads of START, RELOAD_MAP and CONFIGURE_PORT -/

/-- The first of two answers kept with the command. -/
theorem Moves.reading {j m : Command} (command : s.command = some j)
    (same : (∃ prior x y, j = .start prior x ∧ m = .start prior y) ∨ ∃ x y, j = .reloadMap x ∧ m = .reloadMap y) :
    Moves allow s (s.setCommand (some m)) :=
  Move.once (.reading j m command same) (State.notes_of_same rfl id
    ⟨rfl, by rw [command]; rfl, rfl, rfl, rfl, fun _ => rfl⟩)

theorem Acts.endStart {prior : OpState} {z : Option Answer} {x y : Answer} (own : allow .starts)
    (running : s.inReset = false) (command : s.command = some (.start prior z)) :
    Acts allow s (s.endStart prior x y) := by
  unfold State.endStart
  split
  · dsimp only
    split
    · rename_i valid
      exact Acts.startSuccess own running command valid
    · exact Acts.startFailure command
  · exact Acts.startFailure command
  · exact Acts.startFailure command

theorem Acts.answerStartRead (own : allow .starts) (running : s.inReset = false) (i : Issued) :
    Acts allow s (s.answerStartRead i ans) := by
  unfold State.answerStartRead
  split
  · exact Moves.refl.acts
  · split
    · rename_i command
      exact (Moves.reading command (.inl ⟨_, _, _, rfl, rfl⟩)).acts
    · rename_i command
      exact Acts.endStart own running command
    all_goals exact Moves.refl.acts

theorem Moves.finishReload {z : Option Answer} (reloading : s.command = some (.reloadMap z)) :
    Moves allow s (s.finishReload o n) :=
  (Moves.finalResult (State.calm_of_quick reloading (by simp) (by simp) (by simp))).trans (Moves.endHolds _)

theorem Moves.endReload {z : Option Answer} {x y : Answer} (reloading : s.command = some (.reloadMap z)) :
    Moves allow s (s.endReload x y) := by
  unfold State.endReload
  split
  · dsimp only
    split
    · exact Moves.finishReload reloading
    · split
      · exact Moves.finishReload reloading
      · rename_i off
        exact (Move.quiet (.map _ (Bool.eq_false_iff.2 off))).trans (Moves.finishReload (by exact reloading))
  · exact Moves.finishReload reloading
  · exact Moves.finishReload reloading

theorem Moves.answerReloadRead (i : Issued) : Moves allow s (s.answerReloadRead i ans) := by
  unfold State.answerReloadRead
  split
  · exact Moves.refl
  · split
    · rename_i command
      exact Moves.reading command (.inr ⟨_, _, rfl, rfl⟩)
    · rename_i command
      exact Moves.endReload command
    all_goals exact Moves.refl

theorem Moves.configure (x : Word) : Moves allow s (s.configure p x) := by
  unfold State.configure
  split
  · exact Move.quiet (.aside _ _ _ _ _ _ _ _ _ _)
  · rename_i e
    exact (Moves.setEng (v := { s.eng e with settings := settingsOf x }) rfl (.inr rfl)).trans
      (Moves.changePortState _ _)

theorem State.command_configure (s : State) (p : Port) (x : Word) : (s.configure p x).command = s.command := by
  unfold State.configure
  split
  · rfl
  · exact State.command_changePortState _ _ _

theorem Moves.endConfigure (configuring : s.command = some (.configurePort p)) :
    Moves allow s (s.endConfigure p ans) := by
  have final {t : State} {o : CommandOutcome} {n : Nat} (same : t.command = s.command) :
      Moves allow t (t.finalResult 9 o n) :=
    Moves.finalResult (State.calm_of_quick (same.trans configuring) (by simp) (by simp) (by simp))
  unfold State.endConfigure
  split
  · exact final rfl
  · dsimp only
    split
    · exact final rfl
    · split
      · exact final rfl
      · exact (Moves.configure _).trans (final (s.command_configure p _))

theorem Moves.answerPortRead (i : Issued) : Moves allow s (s.answerPortRead i ans) := by
  unfold State.answerPortRead
  split
  · exact Moves.refl
  · split
    · rename_i command
      exact Moves.endConfigure command
    all_goals exact Moves.refl

/-! ### The controller's writes -/

theorem Moves.advanceRing (own : allow .advances) : Moves allow s s.advanceRing := by
  unfold State.advanceRing
  split
  · rename_i g ring
    have taken : Moves allow s (s.setStaged s.staged.tail) := by
      refine Move.quiet (.staged _ (.inl (List.length_tail ▸ Nat.sub_le _ _)) fun head => ?_)
      exact List.all_eq_true.2 fun x member => List.all_eq_true.1 head x (List.mem_of_mem_tail member)
    refine (taken.trans (Moves.changeIndices (.inr own) fun inside => ?_)).trans Moves.raiseRingWrite
    obtain ⟨size, -, consumer⟩ := (State.indicesInRing_iff (s := s) ring).1 inside
    exact (State.indicesInRing_iff (s := { s with
      staged := s.staged.tail, producer := (s.producer + 1) % g.size, consumer := s.consumer }) ring).2
      ⟨size, Nat.mod_lt _ size, consumer⟩
  · exact Moves.refl

theorem Acts.answerRecord {ack : Ack} (own : ack = .ok → allow .advances) (i : Issued) :
    Acts allow s (s.answerRecord i ack) := by
  unfold State.answerRecord
  split
  · exact Moves.refl.acts
  · split
    · exact (Moves.advanceRing (own rfl)).acts
    · exact Acts.haltEntry

theorem Acts.answerReport (i : Issued) (ack : Ack) : Acts allow s (s.answerReport i ack) := by
  unfold State.answerReport
  split
  · exact Moves.refl.acts
  · split
    · exact Moves.refl.acts
    · exact Acts.haltEntry

/-! ### The expiries and the timebase -/

theorem Moves.reportBroken (l : Lock) (i : SeqInfo) : Moves allow s (s.reportBroken l i) := by
  unfold State.reportBroken
  split
  · exact Moves.report _
  · exact Moves.refl

theorem alone_of_lock {l : Lock} (lock : s.lock = some l) : ∀ l', s.lock = some l' → l'.owner = l.owner := by
  intro l' lock'
  cases lock.symm.trans lock'
  rfl

theorem Moves.takeLockExpiry : Moves allow s s.takeLockExpiry := by
  have lost {l : Lock} (lock : s.lock = some l) : Moves allow s (s.lockLost l) :=
    Moves.unlock (fun _ => alone_of_lock lock) rfl
  rcases s.takeLockExpiry_cases with same | ⟨l, lock, ⟨i, -, taken⟩ | ⟨i, -, taken⟩ | ⟨-, taken⟩⟩
  · rw [same]
    exact Moves.refl
  · rw [taken]
    have refused : Moves allow s (s.refuseClosing l.owner) := Moves.refuseClosing _
    have closed : s.closingLost l = ((s.refuseClosing l.owner).setLock none).setSeq l.owner (.free false) := by
      rw [State.refuseClosing_eq]
      rfl
    rw [closed]
    exact (refused.trans (Moves.unlock (fun _ => alone_of_lock (by exact lock)) rfl)).trans (Moves.reportBroken _ _)
  · rw [taken]
    exact (lost lock).trans (Moves.reportBroken _ _)
  · rw [taken]
    exact lost lock

theorem Moves.expirePort (e : Engine) : Moves allow s (s.expirePort e) := by
  unfold State.expirePort State.exitTest
  dsimp only
  split
  · exact (Moves.changePortState e .opened).trans (Moves.setStorm e 0)
  · exact Moves.setStorm e 0

theorem Moves.setNextExpiry (v : Option Micros) : Moves allow s (s.setNextExpiry v) :=
  Move.quiet (.aside _ _ _ _ _ _ _ _ _ _)

theorem Moves.takeIntervalExpiry : Moves allow s s.takeIntervalExpiry := by
  unfold State.takeIntervalExpiry
  split
  · exact (((Moves.expirePort .p1).trans (Moves.expirePort .p2)).trans (Moves.expirePort .p3)).trans
      (Moves.setNextExpiry _)
  · exact Moves.refl

theorem Moves.takeDue (own : allow .completes) : Moves allow s s.takeDue := by
  unfold State.takeDue
  split
  · dsimp only
    split
    · exact (((Moves.setFreeCounter _).trans Moves.takeLockExpiry).trans (Moves.settle own)).trans
        Moves.takeIntervalExpiry
    · exact (((Moves.setFreeCounter _).trans Moves.takeIntervalExpiry).trans (Moves.settle own)).trans
        Moves.takeLockExpiry
  · exact Moves.takeLockExpiry.trans Moves.takeIntervalExpiry

theorem Moves.tick (own : allow .completes) : Moves allow s s.tick :=
  (Moves.takeDue own).trans (Move.quiet (.aside _ _ _ _ _ _ _ _ _ _))

end

/-! ### Every event -/

/-- The rows that write the word COMMAND (R157). -/
def writesWord (c : Instr) : Prop :=
  presentsRequest c = false ∧
    ((∃ k, eventOf c = some fun t => t.commandWritten k) ∨ ∃ l w, eventOf c = some fun t => t.commandWord l w)

/-- What a command of the table may do that others may not. -/
def allowedTo (c : Instr) : Tag → Prop
  | .starts => ∃ a, c = .startReadAnswer a
  | .enables => (∃ l w, c = .enable l w) ∨ ∃ a, c = .pieceAnswer a
  | .advances => c = .ringWriteAnswer .ok
  | .completes => True
  | .unnoted => c = .grant ∨ (∃ a, c = .pieceAnswer a) ∨ writesWord c

theorem acts_of_event {c : Instr} {f : State → State} (row : eventOf c = some f) (s : State) :
    Acts (allowedTo c) s (f s) := by
  have written {k : CommandWrite} (row : eventOf c = some fun t => t.commandWritten k)
      (inside : presentsRequest c = false) : Acts (allowedTo c) s (s.commandWritten k) :=
    Acts.commandWritten trivial (.inr (.inr ⟨inside, .inl ⟨k, row⟩⟩)) k
  have word {l : Lanes} {w : Word} (row : eventOf c = some fun t => t.commandWord l w)
      (inside : presentsRequest c = false) : Acts (allowedTo c) s (s.commandWord l w) :=
    Acts.commandWord trivial (.inr (.inr ⟨inside, .inr ⟨l, w, row⟩⟩)) l w
  cases c with
  | timebaseTick => cases row; exact (Moves.tick trivial).acts
  | requestAccept p r => cases row; exact (Moves.present p r).acts
  | admission p => cases row; exact (Moves.admitOldest p).acts
  | grant => cases row; exact (Moves.arbitrate (.inl rfl)).acts
  | lockTimerExpiry => cases row; exact Moves.takeLockExpiry.acts
  | intervalExpiry => cases row; exact Moves.takeIntervalExpiry.acts
  | unknownCommand w | malformed l w | ignoredCommand w | commandOverrun l w => cases row; exact word rfl rfl
  | consumer l w => cases row; exact (Moves.consumerWord l w).acts
  | enable l w => cases row; exact (Moves.enableWord (.inl ⟨l, w, rfl⟩) l w).acts
  | acknowledge l w => cases row; exact (Moves.acknowledgeWord l w).acts
  | resetAssert | resetRelease | pieceAnswer | postedEntryAnswer | descriptorFetchAnswer | startReadAnswer
  | reloadMapReadAnswer | configurePortReadAnswer | ringWriteAnswer | statusUpdateAnswer | resultWriteAnswer =>
      cases row
  | _ => cases row; exact written rfl rfl

theorem acts_of_answering {c : Instr} {m : Answering} (row : answeringOf c = some m) (i : Issued) {s : State}
    (running : s.inReset = false) : Acts (allowedTo c) s (m.acts i s) := by
  cases c with
  | pieceAnswer a => cases row; exact Acts.answerPiece trivial (.inr ⟨a, rfl⟩) (.inr (.inl ⟨a, rfl⟩)) i
  | postedEntryAnswer a => cases row; exact (Moves.answerPosted i a).acts
  | descriptorFetchAnswer a => cases row; exact Moves.answerFetch.acts
  | startReadAnswer a => cases row; exact Acts.answerStartRead ⟨a, rfl⟩ running i
  | reloadMapReadAnswer a => cases row; exact (Moves.answerReloadRead i).acts
  | configurePortReadAnswer a => cases row; exact (Moves.answerPortRead i).acts
  | ringWriteAnswer a => cases row; exact Acts.answerRecord (fun ok => by rw [ok]; rfl) i
  | statusUpdateAnswer a | resultWriteAnswer a => cases row; exact Acts.answerReport i a
  | _ => cases row

/-- What a command does: an event with its end, or an edge of RESET_N. -/
theorem exec_acts {s t : State} {c : Instr} (h : exec c s = .next t) :
    Acts (allowedTo c) s t ∨ (c = .resetAssert ∧ t = s.asserted) ∨
      ∃ x y, c = .resetRelease x y ∧ s.inReset = true ∧ t = s.released x y := by
  have taken (i : Issued) (rest : List Issued) (issued : s.issued = i :: rest) (allow : Tag → Prop) :
      Moves allow s { s with issued := rest } :=
    Move.quiet (.issued rest (.inl (by rw [issued]; exact Nat.le_succ _)))
  have idle : Acts (allowedTo c) s s := Moves.refl.acts
  rcases exec_cases s c with ⟨f, row, event⟩ | ⟨m, row, answer⟩ | rfl | ⟨x, y, rfl⟩ | ⟨p, r, -, -, refused⟩
  · rcases s.event_next f t (event.symm.trans h) with rfl | rfl
    · exact .inl idle
    · exact .inl ((acts_of_event row s).andMoves (Moves.settle trivial))
  · cases reset : s.inReset with
    | true =>
      rw [State.answerEvent_inReset reset] at answer
      cases answer.symm.trans h
      exact .inl idle
    | false =>
      rcases s.answerEvent_next _ _ _ t (answer.symm.trans h) with rfl | ⟨i, rest, issued, -, -, rfl⟩
      · exact .inl idle
      · exact .inl ((Acts.after (taken i rest issued _)
          (acts_of_answering (s := { s with issued := rest }) row i reset)).andMoves (Moves.settle trivial))
  · cases h
    exact .inr (.inl ⟨rfl, rfl⟩)
  · cases reset : s.inReset with
    | true =>
      have released : exec (.resetRelease x y) s = .next (s.released x y) := congrArg Host.Outcome.next (if_pos reset)
      cases released.symm.trans h
      exact .inr (.inr ⟨x, y, rfl, rfl, rfl⟩)
    | false =>
      have kept : exec (.resetRelease x y) s = .next s := congrArg Host.Outcome.next (if_neg (by simp [reset]))
      cases kept.symm.trans h
      exact .inl idle
  · cases refused.symm.trans h

end Sys2Proof.Machine

/-! The invariants of the machine, from the moves that every command is made of. -/

namespace Sys2Proof.Machine

section
variable {P : State → Prop} {s t : State} {allow : Tag → Prop}

theorem Moves.keeps (move : ∀ a b, Move allow a b → P a → P b) (moves : Moves allow s t) (holds : P s) : P t := by
  induction moves with
  | refl => exact holds
  | tail _ last ih => exact move _ _ last.1 ih

theorem Acts.keeps (move : ∀ a b, Move allow a b → P a → P b) (turn : ∀ a b, Turn allow a b → P a → P b)
    (acts : Acts allow s t) (holds : P s) : P t := by
  obtain ⟨a, b, before, turned, behind⟩ := acts
  have at_a : P a := Moves.keeps move (before.mono Tag.allow_of_still) holds
  have at_b : P b := by
    rcases turned with rfl | ⟨turned, -⟩
    · exact at_a
    · exact turn a b turned at_a
  exact Moves.keeps move behind at_b

/-- A predicate that every move, every turn and both edges of RESET_N keep is kept by every step. -/
theorem step_keeps (move : ∀ allow a b, Move allow a b → P a → P b) (turn : ∀ allow a b, Turn allow a b → P a → P b)
    (asserted : ∀ s : State, P s.asserted)
    (released : ∀ (s : State) x y, s.inReset = true → P s → P { s with inReset := false, anc := x, div := y, now := 0 })
    (pending : ∀ (s : State) l, P s → P { s with pending := l }) (holds : P s) (h : step s = .next t) : P t := by
  rcases step_next_cases h with rfl | ⟨c, rest, h⟩
  · exact holds
  · have front : P (s.setPending rest) := pending s rest holds
    rcases exec_acts h with acts | ⟨-, rfl⟩ | ⟨x, y, -, reset, rfl⟩
    · exact acts.keeps (move _) (turn _) front
    · exact asserted _
    · rw [State.released_eq]
      exact released _ x y reset front

end

/-- Settles O4. -/
theorem capacitiesAndRingAreKept : Obligations.CapacitiesAndRingAreKept :=
  ⟨fun _ _ => step_keeps (P := fun s => s.withinCapacity = true) (fun _ _ _ => Move.withinCapacity)
      (fun _ _ _ => Turn.withinCapacity) (fun _ => rfl)
      (fun _ _ _ _ => id) (fun _ _ => id),
    fun _ _ h => ⟨fun inside => step_keeps (P := fun s => s.indicesInRing = true) (fun _ _ _ => Move.indicesInRing)
      (fun _ _ _ => Turn.indicesInRing)
        (fun _ => rfl) (fun _ _ _ _ => id) (fun _ _ => id) inside h,
      fun head_only => step_keeps (P := fun s => s.writesHeadOnly = true) (fun _ _ _ => Move.writesHeadOnly)
        (fun _ _ _ => Turn.writesHeadOnly) (fun _ => rfl)
        (fun _ _ _ _ => id) (fun _ _ => id) head_only h⟩⟩

/-- Settles O5. -/
theorem rotationsStayBelowTheMiddle : Obligations.RotationsStayBelowTheMiddle :=
  fun _ _ => step_keeps (P := fun s => s.rotationsFit = true) (fun _ _ _ => Move.rotationsFit)
    (fun _ _ _ => Turn.rotationsFit) (fun _ => rfl)
    (fun _ _ _ _ => id) (fun _ _ => id)

/-- Settles O6. -/
theorem lockAndSequencesAgree : Obligations.LockAndSequencesAgree :=
  fun _ _ => step_keeps (P := fun s => s.lockAgrees = true) (fun _ _ _ => Move.lockAgrees)
    (fun _ _ _ => Turn.lockAgrees) (fun _ => rfl)
    (fun _ _ _ _ => id) (fun _ _ => id)

/-- Settles O7. -/
theorem commandsAndHoldsAgree : Obligations.CommandsAndHoldsAgree :=
  ⟨fun _ _ => step_keeps (P := fun s => s.holdsStand = true) (fun _ _ _ => Move.holdsStand)
      (fun _ _ _ => Turn.holdsStand) (fun _ => rfl)
      (fun _ _ _ _ => id) (fun _ _ => id),
    fun _ _ => step_keeps (P := fun s => s.commandAgrees = true) (fun _ _ _ => Move.commandAgrees)
      (fun _ _ _ => Turn.commandAgrees) (fun _ => rfl)
      (fun _ _ _ _ => id) (fun _ _ => id)⟩

/-! ### The zone over the release of RESET_N -/

/-- With no table geometry in force there is no zone. -/
theorem State.zone_of_no_table {s : State} (no_table : s.table = none) : s.zone = [] :=
  State.zone_of_no_geometry s (.inl no_table)

theorem isolated_released {s : State} (x : BitVec 12) (y : BitVec 3) (reset : s.inReset = true)
    (isolated : s.isolated = true) :
    ({ s with inReset := false, anc := x, div := y, now := 0 } : State).isolated = true := by
  obtain ⟨agrees, -, none_admitted, held⟩ := State.isolated_iff.1 isolated
  obtain ⟨t, same⟩ : ∃ t, t = { s with inReset := false, anc := x, div := y, now := 0 } := ⟨_, rfl⟩
  have kept : t.commandAgrees = true ∧ (t.opState.records = true ∨ t.NoneAdmitted) ∧ t.inReset = false ∧
      t.table = none := by
    rw [same]
    exact ⟨agrees, none_admitted, rfl, held reset⟩
  obtain ⟨agrees, none_admitted, running, no_table⟩ := kept
  have off_zone (p : Piece) : t.reachesZone p = false := by
    rw [← Bool.not_eq_true, State.reachesZone_iff]
    rintro ⟨a, -, inside⟩
    rw [State.inZone, State.zone_of_no_table no_table] at inside
    cases inside
  rw [← same]
  refine State.isolated_iff.2 ⟨agrees, fun e => List.all_eq_true.2 fun z _ => ?_, none_admitted,
    fun held => by cases running.symm.trans held⟩
  obtain ⟨r, phase⟩ := z
  cases phase with
  | admitted a => exact List.all_eq_true.2 fun p _ => by rw [off_zone p]; rfl
  | waiting | issued | decided => rfl

/-- Settles O8. -/
theorem engineRequestsKeepOutOfTheZone : Obligations.EngineRequestsKeepOutOfTheZone :=
  fun _ _ => step_keeps (P := fun s => s.isolated = true) (fun _ _ _ => Move.isolated) (fun _ _ _ => Turn.isolated)
    (fun _ => rfl)
    (fun _ x y => isolated_released x y) (fun _ _ => id)

theorem zoneOpen_released {s : State} (x : BitVec 12) (y : BitVec 3) (reset : s.inReset = true)
    (zone_open : s.zoneOpen = true) :
    ({ s with inReset := false, anc := x, div := y, now := 0 } : State).zoneOpen = true := by
  obtain ⟨-, held⟩ := State.zoneOpen_iff.1 zone_open
  refine State.zoneOpen_iff.2 ⟨?_, fun held => by cases held⟩
  rw [State.zone_of_no_table (s := { s with inReset := false, anc := x, div := y, now := 0 }) (held reset)]
  simp [holeInvalid]

/-- A byte of a range lies on one of the range's pages. -/
theorem ByteRange.page_of_holds {z : ByteRange} {a : Word} (inside : z.holds a = true) : pageOf a ∈ z.pages := by
  obtain ⟨low, high⟩ := (ByteRange.holds_iff z a).1 inside
  have page : (pageOf a).toNat = a.toNat / 4096 := by
    simp [pageOf, BitVec.extractLsb'_toNat, Nat.shiftRight_eq_div_pow]
    omega
  refine List.mem_map.2 ⟨a.toNat / 4096 - z.1 / 4096, List.mem_range.2 ?_, ?_⟩
  · have above : a.toNat / 4096 ≤ (z.1 + z.2 - 1) / 4096 := Nat.div_le_div_right (by omega)
    omega
  · have below : z.1 / 4096 ≤ a.toNat / 4096 := Nat.div_le_div_right low
    refine BitVec.eq_of_toNat_eq ?_
    rw [BitVec.toNat_ofNat, page, Nat.add_sub_cancel' below]
    exact Nat.mod_eq_of_lt (by have := a.isLt; omega)

/-- Where no HOLE range matches a page of the zone, no byte of the zone is a HOLE (R77, R79). -/
theorem not_hole_of_zoneOpen {s : State} {a : Word} (zone_open : s.zoneOpen = true) (inside : s.inZone a = true) :
    s.map.attrOf a ≠ .hole := by
  obtain ⟨off, -⟩ := State.zoneOpen_iff.1 zone_open
  obtain ⟨z, member, holds⟩ := List.any_eq_true.1 inside
  intro hole
  have range : ∃ r ∈ s.map.ranges.toList, r.hits (pageOf a) = true ∧ r.attr = .hole := by
    unfold AttributeMap.attrOf at hole
    dsimp only at hole
    split at hole
    · rename_i hit
      simpa [and_assoc] using hit
    · split at hole
      · cases hole
      · split at hole
        · cases hole
        · split at hole <;> cases hole
  obtain ⟨r, among, hits, attr⟩ := range
  have invalid : holeInvalid s.map.ranges s.zone = true := by
    refine List.any_eq_true.2 ⟨r, among, ?_⟩
    rw [decide_eq_true attr, Bool.true_and]
    exact List.any_eq_true.2 ⟨z, member, List.any_eq_true.2 ⟨pageOf a, ByteRange.page_of_holds holds, hits⟩⟩
  cases off.symm.trans invalid

/-- Settles O9. -/
theorem holeRangesKeepOffTheZone : Obligations.HoleRangesKeepOffTheZone := by
  intro s t a zone_open h
  have still : t.zoneOpen = true := step_keeps (P := fun s => s.zoneOpen = true) (fun _ _ _ => Move.zoneOpen)
    (fun _ _ _ => Turn.zoneOpen) (fun _ => rfl) (fun _ x y => zoneOpen_released x y) (fun _ _ => id) zone_open h
  exact ⟨still, not_hole_of_zoneOpen still⟩

end Sys2Proof.Machine

/-! What only its own events change (O2) and the table of the operating state (O11), from the moves of a command. -/

namespace Sys2Proof.Machine

/-! ### What only some commands change -/

/-- What a command leaves of the queue of the commands that wait, of the straps, and of what only some commands
change. -/
structure State.KeptAlong (allow : Tag → Prop) (s t : State) : Prop where
  pending : t.pending = s.pending
  anc : t.anc = s.anc
  div : t.div = s.div
  halt : s.causes.halt = true → t.causes.halt = true ∨ allow .starts
  enables : t.enables = s.enables ∨ allow .enables
  producer : t.producer = s.producer ∨ allow .advances ∨ allow .starts

section
variable {s a b t : State} {allow : Tag → Prop}

theorem State.KeptAlong.refl : s.KeptAlong allow s := ⟨rfl, rfl, rfl, .inl, .inl rfl, .inl rfl⟩

theorem State.KeptAlong.trans (first : s.KeptAlong allow a) (second : a.KeptAlong allow b) : s.KeptAlong allow b := by
  obtain ⟨pending, anc, div, halt, enables, producer⟩ := first
  obtain ⟨pending', anc', div', halt', enables', producer'⟩ := second
  refine ⟨pending'.trans pending, anc'.trans anc, div'.trans div, fun set => ?_, ?_, ?_⟩
  · rcases halt set with set | own
    · exact halt' set
    · exact .inr own
  · rcases enables' with same | own
    · rw [same]
      exact enables
    · exact .inr own
  · rcases producer' with same | own
    · rw [same]
      exact producer
    · exact .inr own

theorem Move.keptAlong (move : Move allow a b) : a.KeptAlong allow b := by
  cases move with
  | causes c halt => exact ⟨rfl, rfl, rfl, fun set => .inl (halt set), .inl rfl, .inl rfl⟩
  | enables v own => exact ⟨rfl, rfl, rfl, .inl, .inr own, .inl rfl⟩
  | indices p c own inside => exact ⟨rfl, rfl, rfl, .inl, .inl rfl, own.imp_right .inl⟩
  | _ => exact ⟨rfl, rfl, rfl, .inl, .inl rfl, .inl rfl⟩

theorem Turn.keptAlong (turn : Turn allow a b) : a.KeptAlong allow b := by
  cases turn with
  | started own => exact ⟨rfl, rfl, rfl, fun _ => .inr own, .inl rfl, .inr (.inr own)⟩
  | startTaken | stopTaken | halted | startFailed => exact ⟨rfl, rfl, rfl, .inl, .inl rfl, .inl rfl⟩

theorem Acts.keptAlong (acts : Acts allow s t) : s.KeptAlong allow t :=
  acts.keeps (P := s.KeptAlong allow) (fun _ _ move kept => kept.trans move.keptAlong)
    (fun _ _ turn kept => kept.trans turn.keptAlong) State.KeptAlong.refl

end

/-- Settles O2. -/
theorem onlyTheirOwnEventsChangeThem : Obligations.OnlyTheirOwnEventsChangeThem := by
  refine ⟨fun s t c h => ?_, fun s t c h not_assert => ?_⟩
  · rcases exec_acts h with acts | ⟨-, rfl⟩ | ⟨x, y, -, -, rfl⟩
    · exact acts.keptAlong.pending
    · rfl
    · rw [State.released_eq]
  · rcases exec_acts h with acts | ⟨assert, -⟩ | ⟨x, y, release, -, rfl⟩
    · obtain ⟨-, anc, div, halt, enables, producer⟩ := acts.keptAlong
      refine ⟨fun set cleared => ?_, fun changed => enables.resolve_left changed, ?_,
        fun changed => producer.resolve_left changed⟩
      · exact (halt set).resolve_left (by simp [cleared])
      · rintro (changed | changed)
        · exact absurd anc changed
        · exact absurd div changed
    · exact absurd assert not_assert
    · rw [State.released_eq]
      refine ⟨fun set cleared => ?_, fun changed => absurd rfl changed, fun _ => ⟨x, y, release⟩,
        fun changed => absurd rfl changed⟩
      cases set.symm.trans cleared

/-! ### The operating state -/

section
variable {s a b t : State} {allow : Tag → Prop}

/-- A move leaves the operating state as it is, or completes STOP. -/
theorem Move.opState (move : Move allow a b) :
    b.opState = a.opState ∨ (allow .completes ∧ a.opState = .stopping ∧ b.opState = .boot) := by
  cases move with
  | stopCompleted own _ stopping => exact .inr ⟨own, stopping, rfl⟩
  | _ => exact .inl rfl

theorem Moves.opState (moves : Moves allow s t) :
    t.opState = s.opState ∨ (allow .completes ∧ s.opState = .stopping ∧ t.opState = .boot) := by
  induction moves with
  | refl => exact .inl rfl
  | tail _ last ih =>
    rcases last.1.opState with same | ⟨own, stopping, boot⟩
    · rw [same]
      exact ih
    · rcases ih with same | ⟨-, -, boot'⟩
      · exact .inr ⟨own, same.symm.trans stopping, boot⟩
      · cases boot'.symm.trans stopping

/-- A turn follows the table of R160, and enters STOPPING from ACTIVE alone. -/
theorem Turn.opMoves (turn : Turn allow a b) (agrees : a.commandAgrees = true) :
    opMoves a.opState b.opState = true ∧ (b.opState = .stopping → a.opState = .active) := by
  cases turn with
  | startTaken idle rests reporting =>
    refine ⟨?_, fun h => by cases h⟩
    rcases rests with rests | rests <;> rw [rests] <;> rfl
  | stopTaken idle active reporting =>
    rw [active]
    exact ⟨rfl, fun _ => rfl⟩
  | halted none_admitted => exact ⟨by cases a.opState <;> rfl, fun h => by cases h⟩
  | started own c engines ports causes running starting valid emptied holds =>
    obtain ⟨prior, x, command⟩ := starting
    obtain ⟨loading, -⟩ := State.starting agrees command
    rw [loading]
    exact ⟨rfl, fun h => by cases h⟩
  | startFailed prior ports starting holds =>
    obtain ⟨x, command⟩ := starting
    obtain ⟨loading, prior⟩ := State.starting agrees command
    rw [loading]
    rcases prior with rfl | rfl <;> exact ⟨rfl, fun h => by cases h⟩

theorem opMoves_refl (o : OpState) : opMoves o o = true := by cases o <;> rfl

theorem Acts.opMoves (acts : Acts allow s t) (agrees : s.commandAgrees = true) :
    opMoves s.opState t.opState = true := by
  obtain ⟨a, b, before, turned, behind⟩ := acts
  have at_a : a.commandAgrees = true :=
    Moves.keeps (P := fun s => s.commandAgrees = true) (fun _ _ => Move.commandAgrees) before agrees
  have still : a.opState = s.opState := before.opState.resolve_right And.left
  have turn : Machine.opMoves a.opState b.opState = true ∧ (b.opState = .stopping → a.opState = .active ∨ b = a) := by
    rcases turned with rfl | ⟨turned, -⟩
    · exact ⟨opMoves_refl _, fun _ => .inr rfl⟩
    · obtain ⟨moves, from_active⟩ := turned.opMoves at_a
      exact ⟨moves, fun h => .inl (from_active h)⟩
  obtain ⟨moves, enters⟩ := turn
  rw [still] at moves enters
  rcases behind.opState with same | ⟨-, stopping, boot⟩
  · rw [same]
    exact moves
  · rw [boot]
    rcases enters stopping with active | rfl
    · rw [active]
      rfl
    · rw [← still, stopping]
      rfl

end

/-- Settles O11. -/
theorem operatingStateTransitions : Obligations.OperatingStateTransitions := by
  intro s t c agrees h
  rcases exec_acts h with acts | ⟨assert, -⟩ | ⟨x, y, -, -, rfl⟩
  · exact .inl (acts.opMoves agrees)
  · exact .inr assert
  · rw [State.released_eq]
    exact .inl (opMoves_refl _)

end Sys2Proof.Machine

/-! The arbiter (chapter 7): which candidate GRANT serves, and what the grant of each kind does (O32, O33, O34). -/

namespace Sys2Proof.Machine

section
variable {s t : State} {p : Port}

/-! ### What GRANT serves -/

theorem State.arbitrate_of_full (full : 8 ≤ s.issued.length) : s.arbitrate = s := if_neg (Nat.not_lt.2 full)

theorem State.arbitrate_of_ctl {r : CtlRequest} {rest : List CtlRequest} (room : s.issued.length < 8)
    (ctl : s.ctl = r :: rest) : s.arbitrate = (s.setCtl rest).grantCtl r := by
  rw [State.arbitrate, ctl]
  exact if_pos room

theorem State.arbitrate_of_port {c : Candidate} (room : s.issued.length < 8) (ctl : s.ctl = [])
    (next : s.nextPort = some (p, c)) : s.arbitrate = s.grantPort p c := by
  rw [State.arbitrate, ctl, next]
  exact if_pos room

theorem State.arbitrate_of_none (ctl : s.ctl = []) (next : s.nextPort = none) : s.arbitrate = s := by
  rw [State.arbitrate, ctl, next]
  exact ite_self s

theorem CtlKind.reports_eq (k : CtlKind) :
    k.reports = decide (k = .recordWrite ∨ k = .statusUpdate ∨ k = .resultWrite) := by cases k <;> rfl

theorem State.grantCtl_eq (r : CtlRequest) : s.grantCtl r = { s with
    issued := s.issued ++ [⟨decide (r.kind = .recordWrite ∨ r.kind = .statusUpdate ∨ r.kind = .resultWrite),
      r.addr, r.beats,
      if r.kind = .statusUpdate then [⟨s.statusWord, 15⟩, ⟨producerWord s.producer, 15⟩] else r.data,
      .ctl r.kind,
      r.cancelled || decide (s.opState = .halted ∧
        (r.kind = .recordWrite ∨ r.kind = .statusUpdate ∨ r.kind = .resultWrite))⟩] } := by
  have data : s.ctlData r =
      if r.kind = .statusUpdate then [⟨s.statusWord, 15⟩, ⟨producerWord s.producer, 15⟩] else r.data := by
    simp [State.ctlData, CtlRequest.isStatus, fullBeats]
  have void : (r.kind.reports && decide (s.opState = .halted)) = decide (s.opState = .halted ∧
      (r.kind = .recordWrite ∨ r.kind = .statusUpdate ∨ r.kind = .resultWrite)) := by
    rw [CtlKind.reports_eq, Bool.and_comm, Bool.decide_and]
  rw [State.grantCtl, data, void, CtlKind.reports_eq]
  rfl

end

/-- Settles O32. -/
theorem grantServesTheControllerFirst : Obligations.GrantServesTheControllerFirst := by
  intro s r rest ready
  have settled : s.settled = true := (State.ready_iff.1 ready).2
  have granted : exec .grant s = .next s.arbitrate.settle := exec_of_ready ready rfl rfl
  rw [granted]
  refine ⟨fun room ctl => ?_, fun full => ?_, fun ctl next => ?_⟩
  · rw [State.arbitrate_of_ctl room ctl, State.grantCtl_eq]
    exact congrArg Host.Outcome.next (State.settle_of_settled settled)
  · rw [State.arbitrate_of_full full, State.settle_of_settled settled]
  · rw [State.arbitrate_of_none ctl next, State.settle_of_settled settled]

/-! ### The port that is looked for -/

section
variable {s : State} {p : Port}

theorem State.eligible_eq_false_iff : s.eligible p = false ↔ ∃ k, s.lock = some k ∧ k.owner ≠ p := by
  cases lock : s.lock <;> simp [State.eligible, lock]

theorem findSome?_first {α β : Type} [DecidableEq α] {f : α → Option β} {l : List α} {b : β}
    (found : l.findSome? f = some b) : ∃ a, f a = some b ∧ ∀ x ∈ l.takeWhile (fun x => decide (x ≠ a)), f x = none := by
  obtain ⟨front, a, back, rfl, at_a, before⟩ := List.findSome?_eq_some_iff.1 found
  have front_apart (x : α) (member : x ∈ front) : decide (x ≠ a) = true := by
    refine decide_eq_true fun same => ?_
    cases (same ▸ before x member).symm.trans at_a
  refine ⟨a, at_a, ?_⟩
  rw [List.takeWhile_append_of_pos front_apart, List.takeWhile_cons, if_neg (by simp), List.append_nil]
  exact before

/-- What a port offers the arbiter: its candidate, where it is eligible (R105). -/
def State.offer (s : State) (p : Port) : Option (Port × Candidate) :=
  if s.eligible p then (s.candidate p).map fun c => (p, c) else none

theorem State.offer_eq_none_iff :
    s.offer p = none ↔ s.candidate p = none ∨ ∃ k, s.lock = some k ∧ k.owner ≠ p := by
  rw [← State.eligible_eq_false_iff, State.offer]
  cases s.eligible p <;> simp

theorem State.offer_eq_some {q : Port} {c : Candidate} (offers : s.offer q = some (p, c)) :
    q = p ∧ s.candidate p = some c ∧ ∀ l, s.lock = some l → p = l.owner := by
  unfold State.offer at offers
  split at offers
  · rename_i eligible
    rw [Option.map_eq_some_iff] at offers
    obtain ⟨c', candidate, same⟩ := offers
    cases same
    exact ⟨rfl, candidate, fun l lock => (of_decide_eq_true ((Option.all_eq_true _ _).1 eligible l lock)).symm⟩
  · cases offers

theorem State.nextPort_eq : s.nextPort = (roundRobinOrder s.roundRobin).findSome? s.offer := rfl

theorem mem_roundRobinOrder (p q : Port) : q ∈ roundRobinOrder p := by
  rcases p with _ | _ | _ | _ <;> rcases q with _ | _ | _ | _ <;> decide

/-! ### The candidate of a port -/

/-- The items a port has not issued are those it presents, each at its place (R92, R104). -/
theorem State.mem_unissuedItems (n : Nat) (c : Candidate) : (n, c) ∈ s.unissuedItems p ↔ s.presentsAt p n c := by
  rw [State.unissuedItems, List.mem_append, List.mem_filterMap, List.mem_filterMap, allIndexes_eq]
  cases c with
  | entry x =>
    have buffered (i : Index8) : s.waitingAt p i ≠ some (n, .entry x) := by
      unfold State.waitingAt
      split
      · split <;> simp
      · simp
    have queued (y : QEntry) : y.unissued = some (n, .entry x) ↔ y = x ∧ ((∃ a, x.phase = .admitted a ∧ n = a.place) ∨
        ∃ a f, x.phase = .issued a false f ∧ a.second ≠ none ∧ n = a.place + 1) := by
      obtain ⟨r, phase⟩ := y
      cases phase with
      | waiting | decided _ =>
        refine ⟨fun h => by simp [QEntry.unissued] at h, ?_⟩
        rintro ⟨rfl, ⟨a, h, -⟩ | ⟨a, f, h, -⟩⟩ <;> cases h
      | admitted a =>
        constructor
        · intro h
          simp only [QEntry.unissued, Option.some.injEq, Prod.mk.injEq, Candidate.entry.injEq] at h
          obtain ⟨rfl, rfl⟩ := h
          exact ⟨rfl, .inl ⟨a, rfl, rfl⟩⟩
        · rintro ⟨rfl, ⟨a', h, rfl⟩ | ⟨a', f, h, -⟩⟩
          · cases h
            rfl
          · cases h
      | issued a g f =>
        constructor
        · intro h
          simp only [QEntry.unissued, Option.ite_none_right_eq_some, Bool.and_eq_true, Bool.not_eq_true',
            Option.some.injEq, Prod.mk.injEq, Candidate.entry.injEq] at h
          obtain ⟨⟨rfl, two⟩, rfl, rfl⟩ := h
          exact ⟨rfl, .inr ⟨a, f, rfl, Option.isSome_iff_ne_none.1 two, rfl⟩⟩
        · rintro ⟨rfl, ⟨a', h, -⟩ | ⟨a', f', h, two, rfl⟩⟩
          · cases h
          · cases h
            simp [QEntry.unissued, Option.isSome_iff_ne_none.2 two]
    simp only [queued, buffered, and_false, exists_false, or_false, State.presentsAt]
    exact ⟨fun ⟨_, member, same, placed⟩ => ⟨same ▸ member, placed⟩, fun ⟨member, placed⟩ => ⟨x, member, rfl, placed⟩⟩
  | buffered i v =>
    have queued (y : QEntry) : y.unissued ≠ some (n, .buffered i v) := by
      unfold QEntry.unissued
      split
      · simp
      · split <;> simp
      all_goals simp
    have waiting (j : Index8) : s.waitingAt p j = some (n, .buffered i v) ↔
        j = i ∧ s.buffer.get i = some v ∧ v.port = p ∧ v.issued = false ∧ n = v.place := by
      unfold State.waitingAt
      constructor
      · intro h
        split at h
        · rename_i w here
          rw [Option.ite_none_right_eq_some] at h
          obtain ⟨⟨port, unissued⟩, same⟩ := h
          cases same
          exact ⟨rfl, here, port, unissued, rfl⟩
        · cases h
      · rintro ⟨rfl, here, port, unissued, rfl⟩
        rw [here]
        exact if_pos ⟨port, unissued⟩
    simp only [queued, waiting, and_false, exists_false, false_or, State.presentsAt]
    exact ⟨fun ⟨_, _, _, rest⟩ => rest, fun rest => ⟨i, List.mem_finRange i, rfl, rest⟩⟩

theorem State.candidate_eq_some {c : Candidate} (candidate : s.candidate p = some c) :
    ∃ n, s.presentsAt p n c ∧ ∀ m d, s.presentsAt p m d → n ≤ m := by
  obtain ⟨⟨n, c'⟩, first, same⟩ := Option.map_eq_some_iff.1 candidate
  cases same
  obtain ⟨member, least⟩ := earliest_spec _ _ first
  exact ⟨n, (State.mem_unissuedItems n c').1 member,
    fun m d presents => least (m, d) ((State.mem_unissuedItems m d).2 presents)⟩

theorem State.candidate_eq_none (candidate : s.candidate p = none) (n : Nat) (c : Candidate) :
    ¬ s.presentsAt p n c := by
  have none_left : s.unissuedItems p = [] := (earliest_eq_none_iff _).1 (Option.map_eq_none_iff.1 candidate)
  rw [← State.mem_unissuedItems, none_left]
  exact List.not_mem_nil

end

/-- Settles O33. -/
theorem grantFollowsTheRoundRobin : Obligations.GrantFollowsTheRoundRobin := by
  refine ⟨fun s p c l => ⟨fun next => ?_, fun next q => ?_⟩,
    fun s p c => ⟨State.candidate_eq_some, State.candidate_eq_none⟩, rfl, rfl, rfl, rfl⟩
  · obtain ⟨q, offers, before⟩ := findSome?_first (State.nextPort_eq.symm.trans next)
    obtain ⟨rfl, candidate, owner⟩ := State.offer_eq_some offers
    exact ⟨candidate, owner l, fun x among => State.offer_eq_none_iff.1 (before x among)⟩
  · rw [State.nextPort_eq, List.findSome?_eq_none_iff] at next
    exact State.offer_eq_none_iff.1 (next q (mem_roundRobinOrder _ q))

end Sys2Proof.Machine

/-! What the grant of each kind of port item does (O34). -/

namespace Sys2Proof.Machine

section
variable {s t : State} {p : Port} {x : QEntry} {a : Admitted} {i : SeqInfo}

/-! ### The end of a grant -/

theorem QEntry.isAdmitted_of_isAdmittedAt {n : Nat} {e : QEntry} (here : e.isAdmittedAt n = true) :
    e.isAdmitted = true := by
  unfold QEntry.isAdmittedAt at here
  split at here
  · rename_i phase
    simp [QEntry.isAdmitted, phase]
  all_goals cases here

/-- The queue of a port in which one entry, ADMITTED or ISSUED, has become ISSUED. -/
def State.reissued (s : State) (p : Port) (at_ : QEntry → Bool) (b : Admitted) (g : Bool) (f : Option Answer) :
    PortUnit :=
  { s.unit p with queue := updateFirst at_ (fun y => ⟨y.req, .issued b g f⟩) (s.queueOf p) }

/-- A grant that issues a piece leaves nothing due. -/
theorem State.settle_of_reissued {at_ : QEntry → Bool} {b : Admitted} {g : Bool} {f : Option Answer}
    (settled : s.settled = true) (busy : ∀ y, at_ y = true → y.isAdmitted = true ∨ y.isIssued = true)
    (ports : t.ports = s.ports.set p (s.reissued p at_ b g f)) (opState : t.opState = s.opState)
    (buffer : t.buffer = s.buffer) (staged : t.staged = s.staged) (ring : t.ring = s.ring)
    (producer : t.producer = s.producer) (consumer : t.consumer = s.consumer) (irq : t.irqAsserted = t.irqLevel)
    (unchanged : t.statusChanged = false) : t.settle = t := by
  obtain ⟨-, not_due, -, -⟩ := s.settled_iff.1 settled
  have unit : (s.reissued p at_ b g f).settled = true :=
    PortUnit.settled_updateFirst (s.unit_settled settled p) (fun _ _ => rfl) (s.unit p).nextPlace
  have idle : (s.reissued p at_ b g f).idle = (s.unit p).idle := by
    refine updateFirst_all (fun y here => ?_) (s.unit p).queue
    rcases busy y here with admitted | issued
    · rw [admitted]
      rfl
    · rw [issued, Bool.not_true, Bool.and_false]
      rfl
  exact State.settle_of_settled_set settled unit ports
    (State.stop_not_due_of_set not_due ports (.inr idle) opState buffer staged ring producer consumer) irq unchanged

/-! ### The first grant of an entry, by its kind -/

theorem State.grantEntry_of_admitted (phase : x.phase = .admitted a) :
    s.grantEntry p x = s.grantAdmitted p x.req a := by
  simp only [State.grantEntry, phase]

theorem State.grantEntry_of_second {f : Option Answer} {q : Piece} (phase : x.phase = .issued a false f)
    (second : a.second = some q) : s.grantEntry p x =
      (s.issuePiece p x.req.kind a.place q).advanceIssued p a.place (.issued a true f) := by
  simp only [State.grantEntry, phase, second]

/-- The first piece issued and the entry ISSUED (R108). -/
def State.grantedFirst (s : State) (p : Port) (kind : Access) (a : Admitted) : State :=
  (s.issuePiece p kind a.place a.first).advanceAdmitted p a.place (.issued a false none)

theorem State.grantedFirst_eq (kind : Access) : s.grantedFirst p kind a = { s with
    issued := s.issued ++ [⟨kind.isWrite, a.first.addr, a.first.beats, a.first.data, .piece p a.place, false⟩]
    ports := s.ports.set p (s.reissued p (QEntry.isAdmittedAt a.place) a false none) } := rfl

theorem State.grantAdmitted_of_plain (kind : x.req.kind = .read ∨ x.req.kind = .write ∨
    (x.req.kind = .lockRead ∧ a.opensLock = false)) :
    s.grantAdmitted p x.req a = s.grantedFirst p x.req.kind a := by
  unfold State.grantAdmitted
  rcases kind with kind | kind | ⟨kind, opens⟩
  · rw [kind]
    rfl
  · rw [kind]
    rfl
  · rw [kind]
    simp only [opens, Bool.false_eq_true, if_false]
    rfl

theorem State.grantAdmitted_of_opening (kind : x.req.kind = .lockRead) (opens : a.opensLock = true) :
    s.grantAdmitted p x.req a = (s.grantedFirst p .lockRead a).beginLock p := by
  unfold State.grantAdmitted
  rw [kind]
  simp only [opens, if_true]
  rfl

theorem State.grantAdmitted_of_unlockWrite (kind : x.req.kind = .unlockWrite) :
    s.grantAdmitted p x.req a = (s.endLock p).grantedFirst p .unlockWrite a := by
  unfold State.grantAdmitted
  rw [kind]
  rfl

theorem State.grantAdmitted_of_unlock (kind : x.req.kind = .unlock) :
    s.grantAdmitted p x.req a = (s.endLock p).advanceAdmitted p a.place (.decided (.done [])) := by
  unfold State.grantAdmitted
  rw [kind]

theorem State.beginLock_of_opening (seq : s.seqOf p = .opening i) : s.beginLock p = { s with
    lock := some ⟨p, i.word, s.now, s.lockLimitOf p⟩, seqs := s.seqs.set p (.holding i) } := by
  simp only [State.beginLock, seq]
  rfl

theorem State.beginLock_of_closing (seq : s.seqOf p = .closing i) : s.beginLock p = { s with
    lock := some ⟨p, i.word, s.now, s.lockLimitOf p⟩ } := by
  simp only [State.beginLock, seq]
  rfl

theorem State.endLock_eq : s.endLock p = { s with lock := none, seqs := s.seqs.set p (.free false) } := rfl

theorem State.lockLimitOf_eq : s.lockLimitOf p = match p with
    | .p0 => s.p0LockLimit
    | .engine e => (s.eng e).settings.lockLimit := by cases p <;> rfl

/-! ### GRANT on a port's item -/

theorem exec_grant_of_entry (ready : s.ready = true) (room : s.issued.length < 8) (ctl : s.ctl = [])
    (next : s.nextPort = some (p, .entry x)) :
    exec .grant s = .next (({ s with roundRobin := p } : State).grantEntry p x).settle := by
  have granted : exec .grant s = .next s.arbitrate.settle := exec_of_ready ready rfl rfl
  rw [granted, State.arbitrate_of_port room ctl next]
  rfl

theorem exec_grant_of_buffered {n : Index8} {v : Posted} (ready : s.ready = true) (room : s.issued.length < 8)
    (ctl : s.ctl = []) (next : s.nextPort = some (p, .buffered n v)) :
    exec .grant s = .next (({ s with roundRobin := p } : State).grantBuffered n v).settle := by
  have granted : exec .grant s = .next s.arbitrate.settle := exec_of_ready ready rfl rfl
  rw [granted, State.arbitrate_of_port room ctl next]
  rfl

end

/-- A buffer entry in the buffer keeps STOP from being due (R165). -/
theorem State.stop_not_due_of_buffered {s : State} {n : Index8} {v : Posted} (here : s.buffer.get n = some v) :
    s.stopDue = false := by
  have not_empty : s.bufferEmpty = false := by
    rw [← Bool.not_eq_true, State.bufferEmpty_iff]
    intro all
    cases (all n).symm.trans here
  simp [State.stopDue, not_empty]

/-- Settles O34. -/
theorem grantActsByKind : Obligations.GrantActsByKind := by
  refine ⟨fun s p x a i q f ready room ctl next => ?entry, fun s p n v ready room ctl next => ?buffered⟩
  case entry =>
    intro moved limit issues
    have settled : s.settled = true := (State.ready_iff.1 ready).2
    obtain ⟨-, -, irq, unchanged⟩ := s.settled_iff.1 settled
    have admitted (y : QEntry) (here : y.isAdmittedAt a.place = true) : y.isAdmitted = true ∨ y.isIssued = true :=
      .inl (QEntry.isAdmitted_of_isAdmittedAt here)
    have issued (y : QEntry) (here : y.isIssuedAt a.place = true) : y.isAdmitted = true ∨ y.isIssued = true :=
      .inr (QEntry.not_admitted_of_isIssuedAt here).2
    have limit_eq : limit = s.lockLimitOf p := State.lockLimitOf_eq.symm
    rw [exec_grant_of_entry ready room ctl next]
    refine ⟨fun phase => ⟨fun kind => ?plain, fun kind opens seq => ?opening, fun kind opens seq => ?closing,
      fun kind => ?unlockWrite, fun kind => ?unlock⟩, fun phase second => ?second⟩
    case plain =>
      have write : decide (x.req.kind = .write) = x.req.kind.isWrite := by
        rcases kind with kind | kind | ⟨kind, -⟩ <;> rw [kind] <;> rfl
      rw [State.grantEntry_of_admitted phase, State.grantAdmitted_of_plain kind, State.grantedFirst_eq, write]
      exact congrArg Host.Outcome.next
        (State.settle_of_reissued (p := p) settled admitted rfl rfl rfl rfl rfl rfl rfl irq unchanged)
    case opening =>
      rw [State.grantEntry_of_admitted phase, State.grantAdmitted_of_opening kind opens, State.grantedFirst_eq,
        State.beginLock_of_opening (i := i), limit_eq]
      · exact congrArg Host.Outcome.next
          (State.settle_of_reissued (p := p) settled admitted rfl rfl rfl rfl rfl rfl rfl irq unchanged)
      · exact seq
    case closing =>
      rw [State.grantEntry_of_admitted phase, State.grantAdmitted_of_opening kind opens, State.grantedFirst_eq,
        State.beginLock_of_closing (i := i), limit_eq]
      · exact congrArg Host.Outcome.next
          (State.settle_of_reissued (p := p) settled admitted rfl rfl rfl rfl rfl rfl rfl irq unchanged)
      · exact seq
    case unlockWrite =>
      rw [State.grantEntry_of_admitted phase, State.grantAdmitted_of_unlockWrite kind, State.endLock_eq,
        State.grantedFirst_eq]
      exact congrArg Host.Outcome.next
        (State.settle_of_reissued (p := p) settled admitted rfl rfl rfl rfl rfl rfl rfl irq unchanged)
    case unlock =>
      rw [State.grantEntry_of_admitted phase, State.grantAdmitted_of_unlock kind, State.endLock_eq]
      exact congrArg Host.Outcome.next (State.settle_of_set_unnoted (p := p) settled rfl irq unchanged)
    case second =>
      rw [State.grantEntry_of_second phase second, State.advanceIssued_eq]
      exact congrArg Host.Outcome.next
        (State.settle_of_reissued (p := p) settled issued rfl rfl rfl rfl rfl rfl rfl irq unchanged)
  case buffered =>
    obtain ⟨ports, -, irq, unchanged⟩ := s.settled_iff.1 (State.ready_iff.1 ready).2
    have replaced : (s.buffer.set n (some { v with issued := true })).get n = some { v with issued := true } :=
      s.buffer.get_set_same n _
    rw [exec_grant_of_buffered ready room ctl next]
    exact congrArg Host.Outcome.next (State.settle_of_settled
      ((State.settled_iff _).2 ⟨ports, State.stop_not_due_of_buffered (n := n) replaced, irq, unchanged⟩))

end Sys2Proof.Machine

/-! The hand-over of an answered P0 write (R17): the live words, the touched selectors, and the rows of the live words
(O37). -/

namespace Sys2Proof.Machine

/-! ### The addresses of a write -/

theorem addBytes_inj (a : Word) {m n : Nat} (small : m < 2 ^ 32) (small' : n < 2 ^ 32) :
    addBytes a m = addBytes a n ↔ m = n := by
  rw [addBytes, addBytes, BitVec.add_right_inj, ← BitVec.toNat_inj, BitVec.toNat_ofNat, BitVec.toNat_ofNat,
    Nat.mod_eq_of_lt small, Nat.mod_eq_of_lt small']

/-- A selector is touched exactly where a beat's word lies in its descriptor (R58). -/
theorem mem_touchedSelectors (g : TableGeometry) (a : Word) (beats k : Nat) :
    k ∈ touchedSelectors g a beats ↔ k < g.count ∧ ∃ y ∈ beatAddrs a beats,
      g.base.toNat + 16 * k ≤ y.toNat ∧ y.toNat < g.base.toNat + 16 * k + 16 := by
  simp only [touchedSelectors, List.mem_map, List.mem_filter, ByteRange.holds_iff, TableGeometry.range]
  constructor
  · rintro ⟨y, ⟨member, low, high⟩, rfl⟩
    exact ⟨by omega, y, member, by omega, by omega⟩
  · rintro ⟨inside, y, member, low, high⟩
    exact ⟨y, ⟨member, by omega, by omega⟩, by omega⟩

/-! ### The live words of a write -/

section
variable {s t : State} {ws : List (Word × Beat)}

/-- A live word at its address acted on, where the write holds it (R156). -/
def liveWord (anchor : Word) (ws : List (Word × Beat)) (o : Nat) (act : State → Lanes → Word → State) (s : State) :
    State :=
  match ws.find? fun y => decide (y.1 = addBytes anchor o) with
  | some y => act s y.2.lanes y.2.data
  | none => s

theorem State.actLive_eq (same : t.anc = s.anc) (o : Nat) (act : State → Lanes → Word → State) :
    t.actLive ws o act = liveWord (anchorOf s.anc) ws o act t := by
  unfold State.actLive beatAt State.blockAddr liveWord
  rw [same]
  cases ws.find? fun y => decide (y.1 = addBytes (anchorOf s.anc) o) <;> rfl

theorem liveWord_of_found {anchor : Word} {o : Nat} {act : State → Lanes → Word → State} {y : Word × Beat}
    (found : ws.find? (fun y => decide (y.1 = addBytes anchor o)) = some y) :
    liveWord anchor ws o act s = act s y.2.lanes y.2.data := by
  rw [liveWord, found]

theorem liveWord_anc {anchor : Word} {o : Nat} {act : State → Lanes → Word → State}
    (kept : ∀ t l w, (act t l w).anc = t.anc) : (liveWord anchor ws o act s).anc = s.anc := by
  unfold liveWord
  split
  · exact kept _ _ _
  · rfl

/-! #### The live words leave the straps -/

theorem State.anc_of_moves (moves : Moves (fun _ => True) s t) : t.anc = s.anc := moves.acts.keptAlong.anc

theorem State.anc_commandWord (l : Lanes) (w : Word) : (s.commandWord l w).anc = s.anc :=
  (Acts.commandWord (allow := fun _ => True) trivial trivial l w).keptAlong.anc

theorem State.anc_consumerWord (l : Lanes) (w : Word) : (s.consumerWord l w).anc = s.anc :=
  State.anc_of_moves (Moves.consumerWord l w)

theorem State.anc_enableWord (l : Lanes) (w : Word) : (s.enableWord l w).anc = s.anc :=
  State.anc_of_moves (Moves.enableWord trivial l w)

theorem State.anc_snoop (ks : List Nat) : (s.snoop ks).anc = s.anc := State.anc_of_moves (Moves.snoop ks)

/-- The live words of a write acted on in ascending address order (R156). -/
def liveWords (anchor : Word) (ws : List (Word × Beat)) (s : State) : State :=
  liveWord anchor ws 0x18 State.acknowledgeWord (liveWord anchor ws 0x14 State.enableWord
    (liveWord anchor ws 0x10 State.consumerWord (liveWord anchor ws 0x00 State.commandWord s)))

theorem State.actLiveWords_eq (same : t.anc = s.anc) : t.actLiveWords ws = liveWords (anchorOf s.anc) ws t := by
  have command := (liveWord_anc (s := t) (anchor := anchorOf s.anc) (ws := ws) (o := 0x00)
    fun _ => State.anc_commandWord).trans same
  have consumer := (liveWord_anc (anchor := anchorOf s.anc) (ws := ws) (o := 0x10)
    fun _ => State.anc_consumerWord).trans command
  have enable := (liveWord_anc (anchor := anchorOf s.anc) (ws := ws) (o := 0x14)
    fun _ => State.anc_enableWord).trans consumer
  rw [State.actLiveWords, State.actLive_eq same, State.actLive_eq command, State.actLive_eq consumer,
    State.actLive_eq enable, liveWords]

/-- A burst of the block's first seven words holds all four live words (R155). -/
theorem liveWords_of_block (anchor : Word) (b0 b1 b2 b3 b4 b5 b6 : Beat) :
    liveWords anchor (addressed anchor [b0, b1, b2, b3, b4, b5, b6]) s =
      (((s.commandWord b0.lanes b0.data).consumerWord b4.lanes b4.data).enableWord b5.lanes b5.data).acknowledgeWord
        b6.lanes b6.data := by
  have words : addressed anchor [b0, b1, b2, b3, b4, b5, b6] = [(addBytes anchor 0x00, b0), (addBytes anchor 0x04, b1),
      (addBytes anchor 0x08, b2), (addBytes anchor 0x0C, b3), (addBytes anchor 0x10, b4), (addBytes anchor 0x14, b5),
      (addBytes anchor 0x18, b6)] := rfl
  rw [words, liveWords, liveWord_of_found (o := 0x00) (y := (addBytes anchor 0x00, b0)),
    liveWord_of_found (o := 0x10) (y := (addBytes anchor 0x10, b4)),
    liveWord_of_found (o := 0x14) (y := (addBytes anchor 0x14, b5)),
    liveWord_of_found (o := 0x18) (y := (addBytes anchor 0x18, b6))] <;>
    simp [addBytes_inj]

/-! ### The hand-over -/

theorem State.handOver_of_untouched {a : Word} {data : List Beat} (untouched : s.touched a data.length = []) :
    s.handOver a data = s.actLiveWords (addressed a data) := by
  unfold State.handOver
  dsimp only
  rw [untouched, List.isEmpty_nil, Bool.not_true, Bool.and_false]
  rfl

theorem State.handOver_of_no_live {a : Word} {data : List Beat}
    (no_live : ∀ o ∈ liveOffsets, ∀ y ∈ addressed a data, y.1 ≠ addBytes (anchorOf s.anc) o) :
    s.handOver a data = s.snoop (s.touched a data.length) := by
  have not_found (o : Nat) (live : o ∈ liveOffsets) : beatAt (addressed a data) (s.blockAddr o) = none := by
    refine Option.map_eq_none_iff.2 (List.find?_eq_none.2 fun y member => ?_)
    rw [decide_eq_true_eq]
    exact no_live o live y member
  have writes_none : s.writesLive (addressed a data) = false :=
    List.any_eq_false.2 fun o live => by rw [not_found o live]; simp
  have passed (o : Nat) (live : o ∈ liveOffsets) (act : State → Lanes → Word → State) :
      s.actLive (addressed a data) o act = s := by
    rw [State.actLive, not_found o live]
  have unacted : s.actLiveWords (addressed a data) = s := by
    rw [State.actLiveWords, passed 0x00 (by decide), passed 0x10 (by decide), passed 0x14 (by decide),
      passed 0x18 (by decide)]
  unfold State.handOver
  dsimp only
  rw [writes_none, unacted]
  rfl

/-- Both hand-overs, in an order the model leaves free (R17). -/
theorem State.handOver_cases (a : Word) (data : List Beat) : ∃ n,
    s.handOver a data = (({ s with freeCounter := n } : State).actLiveWords (addressed a data)).snoop
        (s.touched a data.length) ∨
      s.handOver a data = (({ s with freeCounter := n } : State).snoop (s.touched a data.length)).actLiveWords
        (addressed a data) := by
  unfold State.handOver
  dsimp only
  split
  · refine ⟨s.freeCounter + 1, ?_⟩
    split
    · exact .inl rfl
    · exact .inr rfl
  · exact ⟨s.freeCounter, .inl rfl⟩

theorem State.completeOne_of_supervisor_write {r : Request} {a : Admitted} {d : List Word}
    (write : r.kind.isWrite = true) : s.completeOne .p0 r a (.ok d) =
      (s.handOver a.first.addr a.first.data).advanceIssued .p0 a.place (.decided (.done d)) := by
  simp only [State.completeOne, write, true_and, if_true]

end

/-- The row of a command acts as the COMMAND word of its code does (R158). -/
theorem exec_of_coded {s : State} {c : Instr} {k : CommandWrite} {v : Word} (ready : s.ready = true)
    (row : eventOf c = some fun t => t.commandWritten k) (inside : presentsRequest c = false)
    (coded : commandOf 15 v = k) : exec c s = .next (s.commandWord 15 v).settle := by
  rw [exec_of_ready ready row inside, State.commandWord_of_written s (by decide), coded]

/-- Every row of a command is a word of COMMAND (R158, notes/assumptions/4). -/
theorem exec_of_commandWordOf {s : State} (p : Port) (w : Index8) (arg : Arg) (ready : s.ready = true) :
    ∀ c ∈ [(Instr.start, (1 : BitVec 6)), (.stop, 2), (.loadWindow p w arg, 3), (.clearWindow p w, 4),
        (.rotate p w arg, 5), (.invalidate arg, 6), (.invalidateAll, 7), (.releasePort p, 8), (.configurePort p, 9),
        (.reloadMap, 10), (.drain, 11)],
      exec c.1 s = .next (s.commandWord 15 (commandWordOf c.2 p w arg)).settle := by
  have coded (code : BitVec 6) := commandOf_commandWordOf code p w arg
  simp only [List.forall_mem_cons, List.not_mem_nil, false_imp_iff, implies_true, and_true]
  exact ⟨exec_of_coded ready rfl rfl (coded 1), exec_of_coded ready rfl rfl (coded 2),
    exec_of_coded ready rfl rfl (coded 3), exec_of_coded ready rfl rfl (coded 4),
    exec_of_coded ready rfl rfl (coded 5), exec_of_coded ready rfl rfl (coded 6),
    exec_of_coded ready rfl rfl (coded 7), exec_of_coded ready rfl rfl (coded 8),
    exec_of_coded ready rfl rfl (coded 9), exec_of_coded ready rfl rfl (coded 10),
    exec_of_coded ready rfl rfl (coded 11)⟩

/-- Settles O37. -/
theorem answeredSupervisorWritesAreHandedOver : Obligations.AnsweredSupervisorWritesAreHandedOver := by
  refine ⟨fun s p w arg l v ready => ⟨exec_of_commandWordOf p w arg ready, ?covered, ?laned,
      exec_of_ready (f := fun t => t.consumerWord l v) ready rfl rfl,
      exec_of_ready (f := fun t => t.enableWord l v) ready rfl rfl,
      exec_of_ready (f := fun t => t.acknowledgeWord l v) ready rfl rfl⟩,
    fun s i rest x a g f at_ data b k b0 b1 b2 b3 b4 b5 b6 => ?handOver⟩
  case covered =>
    simp only [List.forall_mem_cons, List.not_mem_nil, false_imp_iff, implies_true, and_true]
    exact ⟨exec_of_ready (f := fun t => t.commandWord 15 v) ready rfl rfl,
      exec_of_ready (f := fun t => t.commandWord 15 v) ready rfl rfl⟩
  case laned =>
    simp only [List.forall_mem_cons, List.not_mem_nil, false_imp_iff, implies_true, and_true]
    exact ⟨exec_of_ready (f := fun t => t.commandWord l v) ready rfl rfl,
      exec_of_ready (f := fun t => t.commandWord l v) ready rfl rfl⟩
  case handOver =>
    intro anchor word live snoop
    have acted (z : State) (same : z.anc = s.anc) : z.actLiveWords (addressed at_ data) = live z :=
      State.actLiveWords_eq same
    refine ⟨fun ready issued write owner here phase one kind => ?_, fun untouched => ?_, fun untouched => ?_,
      fun no_live => ?_, ?_, fun no_table => ?_, fun table => ?_, fun _ => mem_touchedSelectors b at_ data.length k⟩
    · have fits : answerFits (.ok []) i = true := answerFits_ok (by simp [Issued.dataLength, write])
      rw [exec_pieceAnswer ready issued owner here fits, State.answerEntry_of_one phase one,
        State.completeOne_of_supervisor_write kind]
    · rw [State.handOver_of_untouched untouched]
      exact acted s rfl
    · rw [State.handOver_of_untouched untouched, State.actLiveWords_eq rfl]
      exact liveWords_of_block _ b0 b1 b2 b3 b4 b5 b6
    · exact State.handOver_of_no_live no_live
    · obtain ⟨n, order | order⟩ := State.handOver_cases (s := s) at_ data
      · refine ⟨n, .inl (order.trans ?_)⟩
        rw [acted _ (by exact rfl)]
        rfl
      · refine ⟨n, .inr (order.trans ?_)⟩
        exact acted _ (State.anc_snoop _)
    · rw [State.touched, no_table]
    · rw [State.touched, table]

end Sys2Proof.Machine

/-! The eleven checks of START (R162), each as the spec states it, and their order (O30). -/

namespace Sys2Proof.Machine

/-! ### The checks one by one -/

theorem lowByte_ne_zero_iff (w : Word) : w.extractLsb' 0 8 ≠ 0#8 ↔ w.toNat % 256 ≠ 0 := by
  rw [ne_eq, ← BitVec.toNat_inj, BitVec.extractLsb'_toNat]
  simp

theorem ByteRange.overlaps_iff (r t : ByteRange) : r.overlaps t = true ↔ r.1 < t.1 + t.2 ∧ t.1 < r.1 + r.2 := by
  simp [ByteRange.overlaps]

theorem attrOfCode_eq_fourth_iff (b : BitVec 2) : attrOfCode b = .fourth ↔ b = 3 := by
  revert b
  decide

theorem attrOfCode_eq_hole_iff (b : BitVec 2) : attrOfCode b = .hole ↔ b = 2 := by
  revert b
  decide

theorem Eight.any_toList {α : Type} (b : Eight α) (f : α → Bool) :
    b.toList.any f = true ↔ ∃ i, f (b.get i) = true := by
  rw [Eight.toList_eq_map_get]
  simp

/-- The page numbers of a range that is not empty are those of its bytes (R76). -/
theorem ByteRange.mem_pages_iff {z : ByteRange} (some_byte : 1 ≤ z.2) (page : BitVec 20) :
    page ∈ z.pages ↔ ∃ a, (z.1 ≤ a ∧ a < z.1 + z.2) ∧ BitVec.ofNat 20 (a / 4096) = page := by
  simp only [ByteRange.pages, List.mem_map, List.mem_range]
  constructor
  · rintro ⟨i, inside, rfl⟩
    rcases Nat.eq_zero_or_pos i with rfl | later
    · exact ⟨z.1, ⟨le_rfl, by omega⟩, rfl⟩
    · refine ⟨4096 * (z.1 / 4096 + i), ⟨by omega, by omega⟩, ?_⟩
      rw [Nat.mul_div_cancel_left _ (by decide)]
  · rintro ⟨a, ⟨low, high⟩, rfl⟩
    refine ⟨a / 4096 - z.1 / 4096, by omega, ?_⟩
    rw [Nat.add_sub_cancel' (by omega)]

section
variable {ws : List Word}

/-- The words of a range among the 28 (R155). -/
theorem rangesOf_configurationOf (length : ws.length = 28) (i : Index8) :
    (rangesOf (configurationOf ws).rangeWords).get i =
      rangeOf (ws.getD (12 + 2 * i.val) 0) (ws.getD (13 + 2 * i.val) 0) := by
  have all : (configurationOf ws).rangeWords = ws.drop 12 := List.take_of_length_le (by simp [length])
  have word (k : Nat) : (ws.drop 12).getD k 0 = ws.getD (12 + k) 0 := by
    simp [List.getD_eq_getElem?_getD, List.getElem?_drop]
  have next : 12 + (2 * i.val + 1) = 13 + 2 * i.val := by omega
  rw [all, rangesOf, Eight.get_build, word, word, next]

/-- Check 7 (R162). -/
theorem fourthInvalid_iff (length : ws.length = 28) : fourthInvalid (rangesOf (configurationOf ws).rangeWords) = true ↔
    ∃ i < 8, (ws.getD (12 + 2 * i) 0).getLsbD 0 = true ∧ (ws.getD (12 + 2 * i) 0).extractLsb' 1 2 = 3 := by
  rw [fourthInvalid, Eight.any_toList, Fin.exists_iff]
  refine exists_congr fun i => ⟨fun ⟨small, invalid⟩ => ⟨small, ?_⟩, fun ⟨small, invalid⟩ => ⟨small, ?_⟩⟩
  · rw [rangesOf_configurationOf length, Bool.and_eq_true, decide_eq_true_eq] at invalid
    exact ⟨invalid.1, (attrOfCode_eq_fourth_iff _).1 invalid.2⟩
  · rw [rangesOf_configurationOf length, Bool.and_eq_true, decide_eq_true_eq]
    exact ⟨invalid.1, (attrOfCode_eq_fourth_iff _).2 invalid.2⟩

/-- A range matches a page of a zone of ranges that are not empty where it matches the page of a byte of one. -/
theorem zone_hit_iff {zone : List ByteRange} (some_byte : ∀ z ∈ zone, 1 ≤ z.2) (f : BitVec 20 → Bool) :
    (zone.any fun z => z.pages.any f) = true ↔
      ∃ a, (∃ z ∈ zone, z.1 ≤ a ∧ a < z.1 + z.2) ∧ f (BitVec.ofNat 20 (a / 4096)) = true := by
  simp only [List.any_eq_true]
  constructor
  · rintro ⟨z, member, page, among, hit⟩
    obtain ⟨a, inside, rfl⟩ := (ByteRange.mem_pages_iff (some_byte z member) page).1 among
    exact ⟨a, ⟨z, member, inside⟩, hit⟩
  · rintro ⟨a, ⟨z, member, inside⟩, hit⟩
    exact ⟨z, member, _, (ByteRange.mem_pages_iff (some_byte z member) _).2 ⟨a, inside, rfl⟩, hit⟩

/-- Check 8 (R162). -/
theorem holeInvalid_iff (length : ws.length = 28) {zone : List ByteRange} (some_byte : ∀ z ∈ zone, 1 ≤ z.2) :
    holeInvalid (rangesOf (configurationOf ws).rangeWords) zone = true ↔
      ∃ i < 8, (ws.getD (12 + 2 * i) 0).getLsbD 0 = true ∧ (ws.getD (12 + 2 * i) 0).extractLsb' 1 2 = 2 ∧
        ∃ a, (∃ z ∈ zone, z.1 ≤ a ∧ a < z.1 + z.2) ∧
          BitVec.ofNat 20 (a / 4096) &&& (ws.getD (13 + 2 * i) 0).extractLsb' 12 20 =
            (ws.getD (12 + 2 * i) 0).extractLsb' 12 20 &&& (ws.getD (13 + 2 * i) 0).extractLsb' 12 20 := by
  rw [holeInvalid, Eight.any_toList, Fin.exists_iff]
  refine exists_congr fun i => ⟨fun ⟨small, invalid⟩ => ⟨small, ?_⟩,
    fun ⟨small, valid, hole, a, inside, hit⟩ => ⟨small, ?_⟩⟩
  · rw [rangesOf_configurationOf length, Bool.and_eq_true, decide_eq_true_eq, zone_hit_iff some_byte] at invalid
    obtain ⟨hole, a, inside, hit⟩ := invalid
    rw [AttrRange.hits, Bool.and_eq_true, decide_eq_true_eq] at hit
    exact ⟨hit.1, (attrOfCode_eq_hole_iff _).1 hole, a, inside, hit.2⟩
  · rw [rangesOf_configurationOf length, Bool.and_eq_true, decide_eq_true_eq, zone_hit_iff some_byte]
    refine ⟨(attrOfCode_eq_hole_iff _).2 hole, a, inside, ?_⟩
    rw [AttrRange.hits, Bool.and_eq_true, decide_eq_true_eq]
    exact ⟨valid, hit⟩

/-- Check 9 (R162). -/
theorem marksInvalid_iff : ((configurationOf ws).portWords.engines.toList.any marksInvalid) = true ↔
    ∃ i ∈ [6, 7, 8], (ws.getD i 0).extractLsb' 8 8 ≠ 0 ∧ (ws.getD i 0).extractLsb' 8 8 ≤
      (ws.getD i 0).extractLsb' 16 8 := by
  simp [configurationOf, PerEngine.toList, marksInvalid, BitVec.le_def]

/-- Check 10 (R162). -/
theorem limitInvalid_iff : (limitInvalid (configurationOf ws).portWords.p0 ||
      (configurationOf ws).portWords.engines.toList.any limitInvalid) = true ↔
    ∃ i ∈ [5, 6, 7, 8], (ws.getD i 0).extractLsb' 24 8 = 0 := by
  simp [configurationOf, PerEngine.toList, limitInvalid]

end

/-- Settles O30. -/
theorem startChecksInOrder : Obligations.StartChecksInOrder := by
  intro ws anc length w detail block ring size ringEnd table count tableEnd attr valid hits inZone high low c5 c7 c8 c9 c10
  have control : (controlBlockRange anc).1 = block := anchorOf_toNat anc
  have five : ((controlBlockRange anc).overlaps (configurationOf ws).table.range ||
      (controlBlockRange anc).overlaps (configurationOf ws).ring.range ||
      (configurationOf ws).table.range.overlaps (configurationOf ws).ring.range) = true ↔ c5 := by
    simp only [Bool.or_eq_true, ByteRange.overlaps_iff, control, or_assoc]
    exact Iff.rfl
  have six : ((configurationOf ws).table.range.pastTop || (configurationOf ws).ring.range.pastTop) = true ↔
      2 ^ 32 < tableEnd ∨ 2 ^ 32 < ringEnd := by
    simp only [Bool.or_eq_true, ByteRange.pastTop, decide_eq_true_eq]
    exact Iff.rfl
  have eight (some_count : 1 ≤ count) :
      holeInvalid (rangesOf (configurationOf ws).rangeWords) ((configurationOf ws).zone anc) = true ↔ c8 := by
    have inside (a : Nat) : (∃ z ∈ (configurationOf ws).zone anc, z.1 ≤ a ∧ a < z.1 + z.2) ↔ inZone a := by
      simp only [Configuration.zone, List.mem_cons, List.not_mem_nil, or_false, exists_eq_or_imp, exists_eq_left,
        control]
      exact Iff.rfl
    have some_byte : ∀ z ∈ (configurationOf ws).zone anc, 1 ≤ z.2 := by
      have ring_words : 1 ≤ ringSizeOf (configurationOf ws).sizeCode := Nat.mul_pos (by decide) (Nat.two_pow_pos _)
      intro z member
      simp only [Configuration.zone, List.mem_cons, List.not_mem_nil, or_false] at member
      rcases member with rfl | rfl | rfl
      · exact (by decide : 1 ≤ Config.controlBlockBytes)
      · exact Nat.mul_pos (by decide) some_count
      · exact Nat.mul_pos (by decide) ring_words
    rw [holeInvalid_iff length some_byte]
    simp only [inside]
    exact Iff.rfl
  refine ⟨fun bad => if_pos bad, fun good1 => ?_⟩
  have past1 : detail = _ := if_neg (Nat.not_lt.2 good1)
  refine ⟨fun bad => past1.trans (if_pos ((lowByte_ne_zero_iff _).2 bad)), fun good2 => ?_⟩
  have past2 : detail = _ := past1.trans (if_neg fun bad => (lowByte_ne_zero_iff _).1 bad good2)
  refine ⟨fun bad => past2.trans (if_pos bad), fun some_count most => ?_⟩
  have past3 : detail = _ := past2.trans (if_neg fun bad => by
    have bad : count = 0 ∨ 256 < count := bad
    omega)
  refine ⟨fun bad => past3.trans (if_pos ((lowByte_ne_zero_iff _).2 bad)), fun good4 => ?_⟩
  have past4 : detail = _ := past3.trans (if_neg fun bad => (lowByte_ne_zero_iff _).1 bad good4)
  refine ⟨fun bad => past4.trans (if_pos (five.2 bad)), fun good5 => ?_⟩
  have past5 : detail = _ := past4.trans (if_neg fun bad => good5 (five.1 bad))
  refine ⟨fun bad => past5.trans (if_pos (six.2 bad)), fun table_fits ring_fits => ?_⟩
  have past6 : detail = _ := past5.trans (if_neg fun bad => (six.1 bad).elim table_fits.not_gt ring_fits.not_gt)
  refine ⟨fun bad => past6.trans (if_pos ((fourthInvalid_iff length).2 bad)), fun good7 => ?_⟩
  have past7 : detail = _ := past6.trans (if_neg fun bad => good7 ((fourthInvalid_iff length).1 bad))
  refine ⟨fun bad => past7.trans (if_pos ((eight some_count).2 bad)), fun good8 => ?_⟩
  have past8 : detail = _ := past7.trans (if_neg fun bad => good8 ((eight some_count).1 bad))
  refine ⟨fun bad => past8.trans (if_pos (marksInvalid_iff.2 bad)), fun good9 => ?_⟩
  have past9 : detail = _ := past8.trans (if_neg fun bad => good9 (marksInvalid_iff.1 bad))
  refine ⟨fun bad => past9.trans (if_pos (limitInvalid_iff.2 bad)), fun good10 => ?_⟩
  have past10 : detail = _ := past9.trans (if_neg fun bad => good10 (limitInvalid_iff.1 bad))
  exact ⟨fun bad => past10.trans (if_pos bad), fun good => past10.trans (if_neg good)⟩

end Sys2Proof.Machine

/-! A status update follows every change of what it shows (R169, R174): the moves of a command leave an update owed, and
the end of the event raises it (O13). -/

namespace Sys2Proof.Machine

/-- All but the moves made without regard to the status update. -/
def Tag.noting (k : Tag) : Prop := k ≠ .unnoted

/-- Where reporting is on in the end, an update is owed for whatever it shows that has changed. -/
def State.Told (s t : State) : Prop :=
  t.reporting = true → (t.statusWord = s.statusWord ∧ t.producer = s.producer) ∨ t.Owed

section
variable {s t u v : State} {allow : Tag → Prop}

/-! ### From the moves -/

theorem Moves.notes (noting : ¬ allow .unnoted) (moves : Moves allow s t) : s.Notes t := by
  induction moves with
  | refl => exact .refl s
  | tail _ last ih => exact ih.trans (last.2.resolve_right noting)

theorem Acts.notes (noting : ¬ allow .unnoted) (acts : Acts allow s t) : s.Notes t := by
  obtain ⟨a, b, before, turned, behind⟩ := acts
  have at_a : s.Notes a := Moves.notes (allow := Tag.still allow) noting before
  have at_b : s.Notes b := by
    rcases turned with rfl | ⟨-, notes⟩
    · exact at_a
    · exact at_a.trans notes
  exact at_b.trans (behind.notes noting)

theorem notes_of_moves (moves : Moves Tag.noting s t) : s.Notes t := moves.notes fun noting => noting rfl

theorem State.Notes.told (notes : s.Notes t) : s.Told t := fun on => notes.shown (notes.reporting ▸ on)

theorem State.Told.then_notes (told : s.Told u) (notes : u.Notes v) : s.Told v := by
  intro on
  have on : u.reporting = true := notes.reporting.symm.trans on
  rcases told on with ⟨word, producer⟩ | owed
  · rw [← word, ← producer]
    exact notes.shown on
  · exact .inr (notes.owed on owed)

/-- Before a change of what the update shows, whatever else has changed. -/
theorem State.Told.after_same (same : s.ShowsAs u) (told : u.Told v) : s.Told v := by
  obtain ⟨word, producer⟩ := same.word
  intro on
  rw [← word, ← producer]
  exact told on

theorem State.told_settle (told : s.Told t) : s.Told t.settle :=
  told.then_notes (notes_of_moves (Moves.settle fun same => by cases same))

/-- At the end of an event the update that is owed waits (R169). -/
theorem State.waiting_of_owed (settled : t.settled = true) (owed : t.Owed) : t.statusWaiting = true := by
  obtain ⟨-, -, -, unchanged⟩ := t.settled_iff.1 settled
  exact owed.resolve_left (by simp [unchanged])

/-! ### The words of an answered P0 write -/

/-- A command taken: the reporting flag comes first (R169). -/
theorem State.told_commandWritten (c : CommandWrite) : s.Told (s.commandWritten c) := by
  unfold State.commandWritten
  split
  · exact (State.Notes.refl s).told
  · split
    · exact (notes_of_moves Moves.setOverrun).told
    · rename_i not_busy
      have idle : s.command = none := by simpa using not_busy
      have taken : Acts Tag.noting (s.setReporting true) ((s.setReporting true).takeCommand c) :=
        Acts.takeCommand (s := s.setReporting true) (fun same => by cases same) idle rfl c
      exact .after_same (u := s.setReporting true) ⟨rfl, rfl, rfl, rfl, rfl, fun _ => rfl⟩
        (taken.notes fun noting => noting rfl).told

theorem State.told_commandWord (l : Lanes) (w : Word) : s.Told (s.commandWord l w) := by
  unfold State.commandWord
  split
  · exact (State.Notes.refl s).told
  · exact State.told_commandWritten _

theorem State.told_actLiveWords (ws : List (Word × Beat)) : s.Told (s.actLiveWords ws) := by
  have command : s.Told (s.actLive ws 0x00 State.commandWord) := by
    unfold State.actLive
    split
    · exact State.told_commandWord _ _
    · exact (State.Notes.refl s).told
  exact ((command.then_notes (notes_of_moves (Moves.actLive Moves.consumerWord ws _))).then_notes
    (notes_of_moves (Moves.actLive (Moves.enableWord fun same => by cases same) ws _))).then_notes
    (notes_of_moves (Moves.actLive Moves.acknowledgeWord ws _))

theorem State.showsAs_snoop (ks : List Nat) : s.ShowsAs (s.snoop ks) := by
  induction ks generalizing s with
  | nil => exact ⟨rfl, rfl, rfl, rfl, rfl, fun _ => rfl⟩
  | cons k ks ih =>
    obtain ⟨op, busy, causes, producer, consumer, states⟩ := ih (s := s.markSelector k)
    have state (e : Engine) : ((s.markSelector k).eng e).state = (s.eng e).state :=
      (congrArg EngineUnit.state (s.engines.get_map e _)).trans rfl
    exact ⟨op, busy, causes, producer, consumer, fun e => (states e).trans (state e)⟩

theorem State.told_handOver (a : Word) (data : List Beat) : s.Told (s.handOver a data) := by
  obtain ⟨n, order | order⟩ := State.handOver_cases (s := s) a data
  · rw [order]
    have told : s.Told (({ s with freeCounter := n } : State).actLiveWords (addressed a data)) :=
      .after_same (u := { s with freeCounter := n }) ⟨rfl, rfl, rfl, rfl, rfl, fun _ => rfl⟩
        (State.told_actLiveWords _)
    exact told.then_notes (notes_of_moves (Moves.snoop _))
  · rw [order]
    obtain ⟨op, busy, causes, producer, consumer, states⟩ :=
      State.showsAs_snoop (s := { s with freeCounter := n }) (s.touched a data.length)
    exact .after_same ⟨op, busy, causes, producer, consumer, states⟩ (State.told_actLiveWords _)

theorem State.told_answerPiece (i : Issued) (ans : Answer) : s.Told (s.answerPiece i ans) := by
  have advanced (p : Port) (n : Nat) (ph : Phase) (free : ∀ r, (QEntry.mk r ph).isAdmitted = false) (t : State) :
      t.Notes (t.advanceIssued p n ph) := notes_of_moves (Moves.advanceIssued p n free)
  have one (p : Port) (r : Request) (a : Admitted) : s.Told (s.completeOne p r a ans) := by
    unfold State.completeOne
    split
    · dsimp only
      split
      · exact (State.told_handOver _ _).then_notes (advanced _ _ _ (fun _ => rfl) _)
      · exact (advanced _ _ _ (fun _ => rfl) s).told
    · exact (notes_of_moves (Moves.failEntry _)).told
  have entry (p : Port) (x : QEntry) : s.Told (s.answerEntry p x ans) := by
    unfold State.answerEntry
    split
    · split
      · exact one _ _ _
      · exact (advanced _ _ _ (fun _ => rfl) s).told
      · exact (notes_of_moves Moves.completeTwo).told
    all_goals exact (State.Notes.refl s).told
  unfold State.answerPiece
  split
  · split
    · exact entry _ _
    · exact (State.Notes.refl s).told
  all_goals exact (State.Notes.refl s).told

/-! ### Every command -/

/-- A request of the controller granted leaves its queue, and changes nothing that the update shows (R107). -/
theorem State.told_arbitrate : s.Told s.arbitrate := by
  cases ctl : s.ctl with
  | nil => exact (notes_of_moves (Moves.arbitratePorts ctl)).told
  | cons x rest =>
    rcases Nat.lt_or_ge s.issued.length 8 with room | full
    · rw [State.arbitrate_of_ctl room ctl]
      exact fun _ => .inl (State.ShowsAs.word ⟨rfl, rfl, rfl, rfl, rfl, fun _ => rfl⟩)
    · rw [State.arbitrate_of_full full]
      exact (State.Notes.refl s).told

theorem told_of_event {c : Instr} {f : State → State} (row : eventOf c = some f) (inside : presentsRequest c = false)
    (told : s.Told (f s)) (h : exec c s = .next t) : s.Told t := by
  rcases s.event_next f t ((exec_of_event row s inside).symm.trans h) with rfl | rfl
  · exact (State.Notes.refl t).told
  · exact State.told_settle told

theorem exec_told {c : Instr} (h : exec c s = .next t) : s.Told t := by
  by_cases unnoted : allowedTo c .unnoted
  · rcases unnoted with rfl | ⟨a, rfl⟩ | ⟨inside, ⟨k, row⟩ | ⟨l, w, row⟩⟩
    · exact told_of_event rfl rfl State.told_arbitrate h
    · rcases s.answerEvent_next _ _ _ t ((exec_of_answering rfl s).symm.trans h) with rfl | ⟨i, rest, -, -, -, rfl⟩
      · exact (State.Notes.refl t).told
      · exact State.told_settle (.after_same (u := { s with issued := rest })
          ⟨rfl, rfl, rfl, rfl, rfl, fun _ => rfl⟩ (State.told_answerPiece i a))
    · exact told_of_event row inside (State.told_commandWritten k) h
    · exact told_of_event row inside (State.told_commandWord l w) h
  · rcases exec_acts h with acts | ⟨-, rfl⟩ | ⟨x, y, -, -, rfl⟩
    · exact (acts.notes unnoted).told
    · exact fun on => by cases on
    · rw [State.released_eq]
      exact fun _ => .inl (State.ShowsAs.word ⟨rfl, rfl, rfl, rfl, rfl, fun _ => rfl⟩)

end

/-- Settles O13. -/
theorem statusUpdateFollowsEveryChange : Obligations.StatusUpdateFollowsEveryChange := by
  intro s t c settled h on changed
  rcases exec_told h on with ⟨word, producer⟩ | owed
  · rcases changed with changed | changed
    · exact absurd word changed
    · exact absurd producer changed
  · exact State.waiting_of_owed (exec_keeps_settled settled h) owed

end Sys2Proof.Machine
